-- ==== Sys2Proof/Word.lean ====
section
/-! DEFINITION. The unit of data of the engine: the byte, and byte sequences (00_scope.md R8). -/

namespace Sys2Proof

/-- A byte: an unsigned 8-bit value, 0 to 255 (R8). -/
abbrev Byte := BitVec 8

/-- A byte sequence `f`: `f.length` is the spec's `|f|`, and `f[0]` the first byte delivered (R8, R44). -/
abbrev Bytes := List Byte

end Sys2Proof
end

