-- ==== Sys2Proof/Config.lean ====
section
/-! DEFINITION. What an instance of the engine fixes for its life: the three parameters of 00_scope.md section 3
(R4, R5, R6, R32). The spec leaves no value undefined, so there is no free value here. -/

namespace Sys2Proof

/-- The values of `BTYPE_MAP`: the variant a block-type code activates, or `NONE` (R5). -/
inductive Variant where
  | none | button | led | move | motion | brightness | tempHumid | gpio
  deriving DecidableEq, Repr

/-- `ORIENT_XYZ_BASE` is 2 or 3 (R6). -/
inductive OrientBase where
  | two | three
  deriving DecidableEq, Repr

/-- The parameters of one instance.
No operation changes them and reset does not touch them (R32).
Every claim over all states quantifies over all of them (R5; DESIGN CHOICE, log entry 1). -/
structure Params where
  /-- `MAXLEN`: the bound on every byte sequence that crosses a port; `none` is "unbounded" (R4). -/
  maxLen : Option Nat
  /-- `BTYPE_MAP`: one entry for each of the 256 block-type codes (R5). -/
  btypeMap : Vector Variant 256
  /-- `ORIENT_XYZ_BASE` (R6). -/
  orientBase : OrientBase
  deriving DecidableEq, Repr

end Sys2Proof
end

