-- ==== Sys2Proof/Syntax.lean ====
section
/-! DEFINITION. The operations of the engine (00_scope.md R2): one constructor of `Instr` for each row of
spec/opcode_table.json, and the operand types they carry. -/

namespace Sys2Proof

/-- The channel tag that comes with a received frame (30_encoding.md R75). -/
inductive Channel where
  | indicate | notify
  deriving DecidableEq, Repr

/-- A window of two consecutive frame bytes, in frame order (20_memory.md R47). -/
structure Win2 where
  b0 : Byte
  b1 : Byte
  deriving DecidableEq, Repr

/-- A window of three consecutive frame bytes, in frame order; also the version triple (42_value_decoders.md R136). -/
structure Win3 where
  b0 : Byte
  b1 : Byte
  b2 : Byte
  deriving DecidableEq, Repr

/-- A window of four consecutive frame bytes, in frame order. -/
structure Win4 where
  b0 : Byte
  b1 : Byte
  b2 : Byte
  b3 : Byte
  deriving DecidableEq, Repr

/-- The dispatch key of a frame: category, subcommand and the true, unreduced total length (30_encoding.md R62). -/
structure Key where
  category : Byte
  subcommand : Byte
  length : Nat
  deriving DecidableEq, Repr

/-- The 18 frame kinds, one for each dispatch-table entry (R2, R64, R65). -/
inductive Kind where
  | id | batt | sbtn
  | button
  | tap | shake | flip | orient
  | motion
  | bright
  | tempHumid
  | digChg | anaChg | digIn | anaIn | pwrOut | digOut | pwmOut
  deriving DecidableEq, Repr

/-- The operand of `X10`: a byte (type `U8X10`) or the value of two bytes (type `U16X10`) (R137). -/
inductive X10Arg where
  | u8 (b : Byte)
  | u16 (u : BitVec 16)
  deriving DecidableEq, Repr

/-- The operations of the engine, in the order of spec/opcode_table.json.
A frame kind carries its payload split into the fields of 30_encoding.md R67, in frame order.
`pad` holds the payload bytes that no field names (R68).
A unit function that reads a window takes it as a byte sequence of any length, so that a window of the wrong size
can be written down and refused (R140). -/
inductive Instr where
  /-- `ID` (R161): index 2, 3..6, 7..9, 10..13, 14. -/
  | id (blockType : Byte) (serial : Win4) (version : Win3) (pad : Bytes) (battery : Byte)
  /-- `BATT` (R162): index 2. -/
  | batt (battery : Byte)
  /-- `SBTN` (R163): index 2. -/
  | sbtn (status : Byte)
  /-- `BUTTON` (R191): index 2. -/
  | button (status : Byte)
  /-- `TAP` (R192): index 2..3, 4..5, 6..7, 8..15. -/
  | tap (x y z : Win2) (pad : Bytes)
  /-- `SHAKE` (R193): as `TAP`. -/
  | shake (x y z : Win2) (pad : Bytes)
  /-- `FLIP` (R194): as `TAP`. -/
  | flip (x y z : Win2) (pad : Bytes)
  /-- `ORIENT` (R195): index 2, 3, 4, 5, 6, 7, 8, 9..15.
  Which of them form x, y and z depends on `ORIENT_XYZ_BASE` and is settled by the meaning. -/
  | orient (orientation b3 b4 b5 b6 b7 b8 : Byte) (pad : Bytes)
  /-- `MOTION` (R196): index 2, 3, 4. -/
  | motion (arg0 arg1 arg2 : Byte)
  /-- `BRIGHT` (R197): index 2, 3, 4..5, 6..7, 8..11. -/
  | bright (requestId mode : Byte) (brightness proximity : Win2) (pad : Bytes)
  /-- `TEMPHUMID` (R198): index 2, 3, 4..5, 6..7. -/
  | temphumid (requestId mode : Byte) (temperature humidity : Win2)
  /-- `DIGCHG` (R199): index 2, 3. -/
  | digchg (pin edge : Byte)
  /-- `ANACHG` (R200): index 2, 3..4, 5. -/
  | anachg (pin : Byte) (pad : Bytes) (level : Byte)
  /-- `DIGIN` (R201): index 2, 3, 4. -/
  | digin (requestId pin level : Byte)
  /-- `ANAIN` (R202): index 2, 3, 4, 5. -/
  | anain (requestId pin level mode : Byte)
  /-- `PWROUT` (R203): index 2, 3, 4. -/
  | pwrout (requestId pin level : Byte)
  /-- `DIGOUT` (R204): index 2, 3, 4. -/
  | digout (requestId pin level : Byte)
  /-- `PWMOUT` (R205): index 2, 3, 4. -/
  | pwmout (requestId pin level : Byte)
  /-- `RXFRAME.I` (R160): a whole frame on the indicate channel. -/
  | rxframeI (f : Bytes)
  /-- `RXFRAME.N` (R160): a whole frame on the notify channel. -/
  | rxframeN (f : Bytes)
  /-- `TXBODY` (R220): body, append-checksum flag, delivery mode. -/
  | txbody (b : Bytes) (csEn ack : Bool)
  /-- `DISCONNECT` (R165). -/
  | disconnect
  /-- `RESET` (R166). -/
  | reset
  /-- `SUM8` (R90). -/
  | sum8 (bytes : Bytes)
  /-- `VERIFY` (R91). -/
  | verify (f : Bytes)
  /-- `APPEND` (R93). -/
  | append (b : Bytes)
  /-- `CLASSIFY` (R110). -/
  | classify (f : Bytes)
  /-- `LOOKUP` (R112). -/
  | lookup (k : Key) (ch : Channel) (v : Variant)
  /-- `U8` (R130). -/
  | u8 (w : Bytes)
  /-- `UINTLE` (R131). -/
  | uintle (w : Bytes)
  /-- `INTLE16` (R132). -/
  | intle16 (w : Bytes)
  /-- `SCALEDACCEL` (R133). -/
  | scaledaccel (w : Bytes)
  /-- `SCALEDTEMP` (R134). -/
  | scaledtemp (w : Bytes)
  /-- `RATIO255` (R135). -/
  | ratio255 (w : Bytes)
  /-- `VERSION` (R136). -/
  | version (w : Bytes)
  /-- `X10` (R137). -/
  | x10 (u : X10Arg)
  /-- `BOOLZ` (R138). -/
  | boolz (w : Bytes)
  /-- `BOOLNZ` (R139). -/
  | boolnz (w : Bytes)
  /-- `ENCODEWRITE` (R220). -/
  | encodewrite (b : Bytes) (csEn : Bool)
  deriving DecidableEq, Repr

/-- One transaction on an input port (10_state.md R30; the trace notation is 30_encoding.md R72's). -/
inductive Trans where
  /-- port `RX`: `RX I <frame>` or `RX N <frame>` -/
  | rx (ch : Channel) (f : Bytes)
  /-- port `TX`: `TX <body> cs=.. ack=..` -/
  | tx (b : Bytes) (csEn ack : Bool)
  /-- port `DISC`: `DISC` -/
  | disc
  /-- port `RST`: `RST` -/
  | rst
  deriving DecidableEq, Repr

/-- The result of `VERIFY`: `LengthError`, or a boolean (R91). -/
inductive VerifyResult where
  | lengthError
  | verdict (valid : Bool)
  deriving DecidableEq, Repr

/-- Why the decoder gives no frame kind for a byte sequence (R69).
`badWindow` stands for a read outside the frame, which the pipeline never makes (R46). -/
inductive Reject where
  | lengthError | checksumError | unrecognised | badWindow
  deriving DecidableEq, Repr

/-- An exact rational `num / den` with a denominator that is constant for its field (00_scope.md R12).
The engine never divides (42_value_decoders.md R141). -/
structure Scaled where
  num : Int
  den : Nat
  deriving DecidableEq, Repr

/-- A decoded value (00_scope.md R12). -/
inductive Value where
  | byte (b : Byte)
  | uint (n : Nat)
  | sint (z : Int)
  | bool (b : Bool)
  | version (v : Win3)
  | scaled (v : Scaled)
  deriving DecidableEq, Repr

/-- The hidden registers of a byte-serial implementation of `VERIFY` (40_checksum.md R94, 10_state.md R29).
They are no part of the machine's state (R20; log entry 7). -/
structure StreamRegs where
  acc : Byte
  last : Byte
  cnt : Nat
  deriving DecidableEq, Repr

/-- The decoder types of 30_encoding.md R66. -/
inductive DType where
  | u8 | u16le | u32le | s16le | accel | temp | rat255 | ver3 | u8x10 | u16x10 | boolz | boolnz
  deriving DecidableEq, Repr

/-- One row of 30_encoding.md R67: field name, frame-absolute start index, byte count, decoder type. -/
structure Field where
  name : String
  off : Nat
  len : Nat
  dtype : DType
  deriving DecidableEq, Repr

/-- One `FRAME` row of spec/opcode_table.json (30_encoding.md R78).
`variant` is `none` for the base table. -/
structure Row where
  kind : Kind
  word : BitVec 24
  mask : BitVec 24
  variant : Option Variant
  notifyOnly : Bool
  deriving DecidableEq, Repr

end Sys2Proof
end

