-- ==== Sys2Proof/Machine/Flags.lean ====
section
/-! DEFINITION. The Checksum Codec (40_checksum.md) and the transient booleans of the engine (10_state.md R28): the
result of `VERIFY`, the hit or miss of `LOOKUP`, the test `BTYPE == null`. The engine keeps no flag (R28). -/

namespace Sys2Proof.Machine

/-! ### Checksum Codec -/

/-- `Σ s`, the sum of the bytes as unsigned numbers (00_scope.md R10). -/
def byteSum (bs : Bytes) : Nat := (bs.map BitVec.toNat).sum

/-- `SUM8(s) = (Σ s) mod 256` (R90). -/
def sum8 (bs : Bytes) : Byte := BitVec.ofNat 8 (byteSum bs % 256)

/-- `f[|f|-1]`, the last byte; only read by `VERIFY` when there is one. -/
def lastByte (f : Bytes) : Byte := f.getLast?.getD 0

/-- `VERIFY(f)`: the length test first, then `((Σ f[0..n-1]) - f[n-1]) mod 256 == f[n-1]` (R91). -/
def verify (f : Bytes) : VerifyResult :=
  if f.length < 3 then .lengthError
  else .verdict (((byteSum f : Int) - (lastByte f).toNat) % 256 == ((lastByte f).toNat : Int))

/-- `APPEND(b) = b ++ [SUM8(b)]` (R93). -/
def append (b : Bytes) : Bytes := b ++ [sum8 b]

/-! ### The byte-serial form (R94) -/

/-- The hidden registers at the start of every frame: all 0 (R94). -/
def streamStart : StreamRegs := ⟨0, 0, 0⟩

/-- One received byte: `ACC` modulo 256, `LAST`, and a counter that saturates at `CNTMAX` (R94). -/
def streamByte (cntMax : Nat) (r : StreamRegs) (v : Byte) : StreamRegs :=
  ⟨r.acc + v, v, min (r.cnt + 1) cntMax⟩

/-- The hidden registers after all bytes of a frame (R94). -/
def streamFrame (cntMax : Nat) (f : Bytes) : StreamRegs :=
  f.foldl (streamByte cntMax) streamStart

/-- The test at the end of a frame: `CNT < 3` is the length error, else `(ACC - LAST) mod 256 == LAST` (R94). -/
def streamVerdict (r : StreamRegs) : VerifyResult :=
  if r.cnt < 3 then .lengthError else .verdict (r.acc - r.last == r.last)

/-- The streamed transmit path: the body goes out while `ACC` accumulates, and `ACC` is sent last (R94). -/
def streamAppend (b : Bytes) : Bytes :=
  b ++ [b.foldl (fun acc v => acc + v) 0]

/-! ### Transient booleans (R28) -/

/-- The hit or miss of `LOOKUP`. -/
def lookupHit (k : Option Kind) : Bool := k.isSome

/-- The test `BTYPE == null`, that is `BT_VALID == 0` (10_state.md R21). -/
def isNull (btype : Option Byte) : Bool := btype.isNone

end Sys2Proof.Machine
end

