-- ==== Sys2Proof/Machine/Operands.lean ====
section
/-! DEFINITION. Reading operands: `MemRead` on the frame buffer (20_memory.md R46), windows of 1 to 4 bytes, and the
value decoders of 42_value_decoders.md as pure functions of a window of their size. -/

namespace Sys2Proof.Machine

/-! ### The frame buffer -/

/-- `MemRead(i, n)`: the bytes `f[i..i+n-1]`, given only when `i + n <= |f|` (R11, R46). -/
def memRead (f : Bytes) (i n : Nat) : Option Bytes :=
  if i + n ≤ f.length then some ((f.drop i).take n) else none

/-- A byte sequence as a window of exactly one byte. -/
def asByte : Bytes → Option Byte
  | [b0] => some b0
  | _ => none

/-- A byte sequence as a window of exactly two bytes. -/
def asWin2 : Bytes → Option Win2
  | [b0, b1] => some ⟨b0, b1⟩
  | _ => none

/-- A byte sequence as a window of exactly three bytes. -/
def asWin3 : Bytes → Option Win3
  | [b0, b1, b2] => some ⟨b0, b1, b2⟩
  | _ => none

/-- A byte sequence as a window of exactly four bytes. -/
def asWin4 : Bytes → Option Win4
  | [b0, b1, b2, b3] => some ⟨b0, b1, b2, b3⟩
  | _ => none

/-- `MemRead(i, 1)` as a byte. -/
def byteAt (f : Bytes) (i : Nat) : Option Byte := (memRead f i 1).bind asByte

/-- `MemRead(i, 2)` as a window. -/
def win2At (f : Bytes) (i : Nat) : Option Win2 := (memRead f i 2).bind asWin2

/-- `MemRead(i, 3)` as a window. -/
def win3At (f : Bytes) (i : Nat) : Option Win3 := (memRead f i 3).bind asWin3

/-- `MemRead(i, 4)` as a window. -/
def win4At (f : Bytes) (i : Nat) : Option Win4 := (memRead f i 4).bind asWin4

/-- The bytes of a window, in frame order. -/
def bytes2 (w : Win2) : Bytes := [w.b0, w.b1]

/-- The bytes of a window, in frame order. -/
def bytes3 (w : Win3) : Bytes := [w.b0, w.b1, w.b2]

/-- The bytes of a window, in frame order. -/
def bytes4 (w : Win4) : Bytes := [w.b0, w.b1, w.b2, w.b3]

/-! ### The value decoders -/

/-- `U8`: the byte unchanged (R130). -/
def u8 (b : Byte) : Byte := b

/-- `UINTLE`: the first byte is the least significant; defined for any number of bytes (R131). -/
def uintLE : Bytes → Nat
  | [] => 0
  | b :: rest => b.toNat + 256 * uintLE rest

/-- `INTLE16`: `UINTLE`, less 0x10000 when it exceeds 0x7FFF (R132). -/
def intLE16 (w : Win2) : Int :=
  let u := uintLE (bytes2 w)
  if u > 0x7FFF then (u : Int) - 0x10000 else (u : Int)

/-- `SCALEDACCEL`: `INTLE16(w) / 1024` (R133). -/
def scaledAccel (w : Win2) : Scaled := ⟨intLE16 w, 1024⟩

/-- The integer part of an acceleration numerator: an arithmetic shift right by 10, toward minus infinity (R133). -/
def accelInt (num : Int) : Int := num.shiftRight 10

/-- The fraction part of an acceleration numerator: its low 10 bits (R133). -/
def accelFrac (num : Int) : Int := num % 1024

/-- `SCALEDTEMP`: `INTLE16(w) / 10` (R134). -/
def scaledTemp (w : Win2) : Scaled := ⟨intLE16 w, 10⟩

/-- `RATIO255`: `b0 / 255` (R135). -/
def ratio255 (b : Byte) : Scaled := ⟨(b.toNat : Int), 255⟩

/-- `VERSION`: the three bytes kept apart, in frame order (R136). -/
def version (w : Win3) : Win3 := w

/-- `dec(v)`: the decimal numeral of a byte without leading zeros (R136, D11). -/
def decText (b : Byte) : List Char := Nat.toDigits 10 b.toNat

/-- The text form of a version, which the consumer computes: three numerals joined by dots (R136). -/
def versionText (w : Win3) : List Char :=
  decText w.b0 ++ '.' :: decText w.b1 ++ '.' :: decText w.b2

/-- `X10`: ten times the operand, never reduced (R137). -/
def x10 (u : Nat) : Nat := 10 * u

/-- The unsigned integer an `X10` operand stands for (R137). -/
def x10Operand : X10Arg → Nat
  | .u8 b => b.toNat
  | .u16 u => u.toNat

/-- `BOOLZ`: true when the byte is zero (R138). -/
def boolZ (b : Byte) : Bool := b == 0

/-- `BOOLNZ`: true when the byte is not zero (R139). -/
def boolNZ (b : Byte) : Bool := b != 0

/-! ### Fields by their table row -/

/-- The decoder that a decoder type names, on a window of its size (30_encoding.md R66). -/
def decodeWindow (d : DType) (w : Bytes) : Option Value :=
  match d with
  | .u8 => (asByte w).map fun b => .byte (u8 b)
  | .u16le => (asWin2 w).map fun p => .uint (uintLE (bytes2 p))
  | .u32le => (asWin4 w).map fun p => .uint (uintLE (bytes4 p))
  | .s16le => (asWin2 w).map fun p => .sint (intLE16 p)
  | .accel => (asWin2 w).map fun p => .scaled (scaledAccel p)
  | .temp => (asWin2 w).map fun p => .scaled (scaledTemp p)
  | .rat255 => (asByte w).map fun b => .scaled (ratio255 b)
  | .ver3 => (asWin3 w).map fun p => .version (version p)
  | .u8x10 => (asByte w).map fun b => .uint (x10 (u8 b).toNat)
  | .u16x10 => (asWin2 w).map fun p => .uint (x10 (uintLE (bytes2 p)))
  | .boolz => (asByte w).map fun b => .bool (boolZ b)
  | .boolnz => (asByte w).map fun b => .bool (boolNZ b)

/-- The value of a field of a frame: its decoder applied to `MemRead(off, len)` (30_encoding.md R66, R67). -/
def decodeField (f : Bytes) (fd : Field) : Option Value :=
  (memRead f fd.off fd.len).bind (decodeWindow fd.dtype)

end Sys2Proof.Machine
end

