-- ==== Sys2Proof/WellFormed.lean ====
section
/-! DEFINITION. When an instruction is one the spec gives a meaning: the sizes of its windows and of its unnamed
payload bytes. The bound `MAXLEN` belongs to the instance, not to the instruction, and is checked by the machine. -/

namespace Sys2Proof

/-- The syntactic checks on an operation.
* A frame kind's unnamed bytes fill its fixed length (30_encoding.md R67, R68).
* `CLASSIFY` needs two bytes (41_classifier.md R110).
* A value decoder needs a window of exactly its size (42_value_decoders.md R140). -/
def Instr.wf : Instr → Bool
  | .id _ _ _ pad _ => pad.length == 4
  | .batt _ => true
  | .sbtn _ => true
  | .button _ => true
  | .tap _ _ _ pad => pad.length == 8
  | .shake _ _ _ pad => pad.length == 8
  | .flip _ _ _ pad => pad.length == 8
  | .orient _ _ _ _ _ _ _ pad => pad.length == 7
  | .motion _ _ _ => true
  | .bright _ _ _ _ pad => pad.length == 4
  | .temphumid _ _ _ _ => true
  | .digchg _ _ => true
  | .anachg _ pad _ => pad.length == 2
  | .digin _ _ _ => true
  | .anain _ _ _ _ => true
  | .pwrout _ _ _ => true
  | .digout _ _ _ => true
  | .pwmout _ _ _ => true
  | .rxframeI _ => true
  | .rxframeN _ => true
  | .txbody _ _ _ => true
  | .disconnect => true
  | .reset => true
  | .sum8 _ => true
  | .verify _ => true
  | .append _ => true
  | .classify f => decide (2 ≤ f.length)
  | .lookup _ _ _ => true
  | .u8 w => w.length == 1
  | .uintle _ => true
  | .intle16 w => w.length == 2
  | .scaledaccel w => w.length == 2
  | .scaledtemp w => w.length == 2
  | .ratio255 w => w.length == 1
  | .version w => w.length == 3
  | .x10 _ => true
  | .boolz w => w.length == 1
  | .boolnz w => w.length == 1
  | .encodewrite _ _ => true

end Sys2Proof
end

