-- ==== Sys2Proof/Decode.lean ====
section
/-! DEFINITION. The decoder and the encoder of frames. A frame is what an instruction word is in a processor
(30_encoding.md): its key selects the frame kind, its payload holds the operand fields. The decoder is the Frame
Classifier (41_classifier.md) behind `VERIFY`, and then the field layout of 30_encoding.md R67. It is total and rejects
by name. Port operations and unit functions have no bit encoding (R78). -/

namespace Sys2Proof

open Sys2Proof.Machine

/-! ### Keys -/

/-- `CLASSIFY(f) = (f[0], f[1], |f|)`, given only when `|f| >= 2` (R110). -/
def classify : Bytes → Option Key
  | c :: sc :: rest => some ⟨c, sc, rest.length + 2⟩
  | _ => none

/-- `KEYW`: category in bits [23:16], subcommand in [15:8], the length saturated at 255 in [7:0] (R62). -/
def keyWord (k : Key) : BitVec 24 :=
  k.category ++ k.subcommand ++ BitVec.ofNat 8 (min k.length 255)

/-- `LOOKUP(k, ch, v)`: the base table first, then the active variant's table (R112). -/
def lookup (k : Key) (ch : Channel) (v : Variant) : Option Kind :=
  if k = ⟨0x00, 0x02, 16⟩ then some .id
  else if k = ⟨0x00, 0x00, 4⟩ ∧ ch = .notify then some .batt
  else if k = ⟨0x00, 0x01, 4⟩ then some .sbtn
  else if v = .button ∧ k = ⟨0x01, 0x00, 4⟩ then some .button
  else if v = .move ∧ k = ⟨0x01, 0x00, 17⟩ then some .tap
  else if v = .move ∧ k = ⟨0x01, 0x01, 17⟩ then some .shake
  else if v = .move ∧ k = ⟨0x01, 0x02, 17⟩ then some .flip
  else if v = .move ∧ k = ⟨0x01, 0x03, 17⟩ then some .orient
  else if v = .motion ∧ k = ⟨0x01, 0x00, 6⟩ then some .motion
  else if v = .brightness ∧ k = ⟨0x01, 0x00, 13⟩ then some .bright
  else if v = .tempHumid ∧ k = ⟨0x01, 0x00, 9⟩ then some .tempHumid
  else if v = .gpio ∧ k = ⟨0x01, 0x00, 5⟩ then some .digChg
  else if v = .gpio ∧ k = ⟨0x01, 0x01, 7⟩ then some .anaChg
  else if v = .gpio ∧ k = ⟨0x01, 0x02, 6⟩ then some .digIn
  else if v = .gpio ∧ k = ⟨0x01, 0x03, 7⟩ then some .anaIn
  else if v = .gpio ∧ k = ⟨0x01, 0x04, 6⟩ then some .pwrOut
  else if v = .gpio ∧ k = ⟨0x01, 0x05, 6⟩ then some .digOut
  else if v = .gpio ∧ k = ⟨0x01, 0x06, 6⟩ then some .pwmOut
  else none

/-! ### The tables as data -/

/-- The `FRAME` rows of spec/opcode_table.json: key word, mask, table and channel qualifier (R64, R65, R78). -/
def frameRows : List Row :=
  [⟨.id, 0x000210, 0xFFFFFF, none, false⟩,
   ⟨.batt, 0x000004, 0xFFFFFF, none, true⟩,
   ⟨.sbtn, 0x000104, 0xFFFFFF, none, false⟩,
   ⟨.button, 0x010004, 0xFFFFFF, some .button, false⟩,
   ⟨.tap, 0x010011, 0xFFFFFF, some .move, false⟩,
   ⟨.shake, 0x010111, 0xFFFFFF, some .move, false⟩,
   ⟨.flip, 0x010211, 0xFFFFFF, some .move, false⟩,
   ⟨.orient, 0x010311, 0xFFFFFF, some .move, false⟩,
   ⟨.motion, 0x010006, 0xFFFFFF, some .motion, false⟩,
   ⟨.bright, 0x01000D, 0xFFFFFF, some .brightness, false⟩,
   ⟨.tempHumid, 0x010009, 0xFFFFFF, some .tempHumid, false⟩,
   ⟨.digChg, 0x010005, 0xFFFFFF, some .gpio, false⟩,
   ⟨.anaChg, 0x010107, 0xFFFFFF, some .gpio, false⟩,
   ⟨.digIn, 0x010206, 0xFFFFFF, some .gpio, false⟩,
   ⟨.anaIn, 0x010307, 0xFFFFFF, some .gpio, false⟩,
   ⟨.pwrOut, 0x010406, 0xFFFFFF, some .gpio, false⟩,
   ⟨.digOut, 0x010506, 0xFFFFFF, some .gpio, false⟩,
   ⟨.pwmOut, 0x010606, 0xFFFFFF, some .gpio, false⟩]

/-- A row admits a channel: its qualifier is "either", or the channel is `NOTIFY` (R78, R113). -/
def rowAdmits (r : Row) (ch : Channel) : Bool := !r.notifyOnly || ch == .notify

/-- A row is in an active table: it is a base row, or its variant is the active one (R78). -/
def rowActive (r : Row) (v : Variant) : Bool :=
  match r.variant with
  | none => true
  | some w => w == v

/-- A frame with key `k` on channel `ch` selects a row while `v` is active (R78). -/
def rowSelects (r : Row) (k : Key) (ch : Channel) (v : Variant) : Bool :=
  keyWord k &&& r.mask == r.word && rowAdmits r ch && rowActive r v

/-- The table's key of a frame kind (R64, R65). -/
def keyOf : Kind → Key
  | .id => ⟨0x00, 0x02, 16⟩
  | .batt => ⟨0x00, 0x00, 4⟩
  | .sbtn => ⟨0x00, 0x01, 4⟩
  | .button => ⟨0x01, 0x00, 4⟩
  | .tap => ⟨0x01, 0x00, 17⟩
  | .shake => ⟨0x01, 0x01, 17⟩
  | .flip => ⟨0x01, 0x02, 17⟩
  | .orient => ⟨0x01, 0x03, 17⟩
  | .motion => ⟨0x01, 0x00, 6⟩
  | .bright => ⟨0x01, 0x00, 13⟩
  | .tempHumid => ⟨0x01, 0x00, 9⟩
  | .digChg => ⟨0x01, 0x00, 5⟩
  | .anaChg => ⟨0x01, 0x01, 7⟩
  | .digIn => ⟨0x01, 0x02, 6⟩
  | .anaIn => ⟨0x01, 0x03, 7⟩
  | .pwrOut => ⟨0x01, 0x04, 6⟩
  | .digOut => ⟨0x01, 0x05, 6⟩
  | .pwmOut => ⟨0x01, 0x06, 6⟩

/-- The variant whose table holds a frame kind; `none` for the base table (R64, R65). -/
def variantOf : Kind → Option Variant
  | .id | .batt | .sbtn => none
  | .button => some .button
  | .tap | .shake | .flip | .orient => some .move
  | .motion => some .motion
  | .bright => some .brightness
  | .tempHumid => some .tempHumid
  | .digChg | .anaChg | .digIn | .anaIn | .pwrOut | .digOut | .pwmOut => some .gpio

/-- The first index of the x field of `ORIENT` (00_scope.md R6). -/
def xyzBase : OrientBase → Nat
  | .two => 2
  | .three => 3

/-- The events of a frame kind with their fields, as the table of 30_encoding.md R67 lists them, in emission order.
The conditional fifth event of `ID` is `detectionLayout`. -/
def layout (base : OrientBase) : Kind → List (String × List Field)
  | .id =>
    [("block_type", [⟨"value", 2, 1, .u8⟩]),
     ("serial_number", [⟨"value", 3, 4, .u32le⟩]),
     ("version", [⟨"value", 7, 3, .ver3⟩]),
     ("battery_level", [⟨"value", 14, 1, .u8x10⟩])]
  | .batt => [("battery_level", [⟨"value", 2, 1, .u8x10⟩])]
  | .sbtn => [("status_button", [⟨"value", 2, 1, .u8⟩])]
  | .button => [("button", [⟨"status", 2, 1, .u8⟩])]
  | .tap => [("tap", [⟨"x", 2, 2, .accel⟩, ⟨"y", 4, 2, .accel⟩, ⟨"z", 6, 2, .accel⟩])]
  | .shake => [("shake", [⟨"x", 2, 2, .accel⟩, ⟨"y", 4, 2, .accel⟩, ⟨"z", 6, 2, .accel⟩])]
  | .flip => [("flip", [⟨"x", 2, 2, .accel⟩, ⟨"y", 4, 2, .accel⟩, ⟨"z", 6, 2, .accel⟩])]
  | .orient =>
    [("orientation", [⟨"orientation", 2, 1, .u8⟩, ⟨"x", xyzBase base, 2, .accel⟩,
      ⟨"y", xyzBase base + 2, 2, .accel⟩, ⟨"z", xyzBase base + 4, 2, .accel⟩])]
  | .motion => [("motion", [⟨"arg0", 2, 1, .u8⟩, ⟨"arg1", 3, 1, .u8⟩, ⟨"arg2", 4, 1, .u8⟩])]
  | .bright =>
    [("brightness", [⟨"request_id", 2, 1, .u8⟩, ⟨"mode", 3, 1, .u8⟩, ⟨"brightness", 4, 2, .u16le⟩,
      ⟨"proximity", 6, 2, .u16x10⟩])]
  | .tempHumid =>
    [("temphumid", [⟨"request_id", 2, 1, .u8⟩, ⟨"mode", 3, 1, .u8⟩, ⟨"temperature", 4, 2, .temp⟩,
      ⟨"humidity", 6, 2, .s16le⟩])]
  | .digChg => [("digital_changed", [⟨"pin", 2, 1, .u8⟩, ⟨"edge", 3, 1, .u8⟩])]
  | .anaChg => [("analog_changed", [⟨"pin", 2, 1, .u8⟩, ⟨"level", 5, 1, .rat255⟩])]
  | .digIn =>
    [("digital_input", [⟨"request_id", 2, 1, .u8⟩, ⟨"pin", 3, 1, .u8⟩, ⟨"level", 4, 1, .boolz⟩])]
  | .anaIn =>
    [("analog_input", [⟨"request_id", 2, 1, .u8⟩, ⟨"pin", 3, 1, .u8⟩, ⟨"level", 4, 1, .rat255⟩,
      ⟨"mode", 5, 1, .u8⟩])]
  | .pwrOut =>
    [("power_output", [⟨"request_id", 2, 1, .u8⟩, ⟨"pin", 3, 1, .u8⟩, ⟨"level", 4, 1, .boolnz⟩])]
  | .digOut =>
    [("digital_output", [⟨"request_id", 2, 1, .u8⟩, ⟨"pin", 3, 1, .u8⟩, ⟨"level", 4, 1, .boolnz⟩])]
  | .pwmOut =>
    [("pwm_output", [⟨"request_id", 2, 1, .u8⟩, ⟨"pin", 3, 1, .u8⟩, ⟨"level", 4, 1, .rat255⟩])]

/-- The conditional event of `ID`: `block_type_detected`, from the same byte as `block_type` (R67). -/
def detectionLayout : String × List Field := ("block_type_detected", [⟨"value", 2, 1, .u8⟩])

/-- A frame index that some event field of the kind reads (R67); every other payload index is ignored (R68). -/
def readIndex (base : OrientBase) (k : Kind) (i : Nat) : Bool :=
  (layout base k).any fun e => e.2.any fun fd => decide (fd.off ≤ i ∧ i < fd.off + fd.len)

/-! ### Fields out of a frame -/

/-- The operand fields of a frame of a given kind, each by one `MemRead` (R67).
`none` only when a window lies outside the frame. -/
def parse (k : Kind) (f : Bytes) : Option Instr :=
  match k with
  | .id => do
    let t ← byteAt f 2
    let serial ← win4At f 3
    let ver ← win3At f 7
    let pad ← memRead f 10 4
    let battery ← byteAt f 14
    some (.id t serial ver pad battery)
  | .batt => do some (.batt (← byteAt f 2))
  | .sbtn => do some (.sbtn (← byteAt f 2))
  | .button => do some (.button (← byteAt f 2))
  | .tap => do some (.tap (← win2At f 2) (← win2At f 4) (← win2At f 6) (← memRead f 8 8))
  | .shake => do some (.shake (← win2At f 2) (← win2At f 4) (← win2At f 6) (← memRead f 8 8))
  | .flip => do some (.flip (← win2At f 2) (← win2At f 4) (← win2At f 6) (← memRead f 8 8))
  | .orient => do
    some (.orient (← byteAt f 2) (← byteAt f 3) (← byteAt f 4) (← byteAt f 5) (← byteAt f 6)
      (← byteAt f 7) (← byteAt f 8) (← memRead f 9 7))
  | .motion => do some (.motion (← byteAt f 2) (← byteAt f 3) (← byteAt f 4))
  | .bright => do
    some (.bright (← byteAt f 2) (← byteAt f 3) (← win2At f 4) (← win2At f 6) (← memRead f 8 4))
  | .tempHumid => do some (.temphumid (← byteAt f 2) (← byteAt f 3) (← win2At f 4) (← win2At f 6))
  | .digChg => do some (.digchg (← byteAt f 2) (← byteAt f 3))
  | .anaChg => do some (.anachg (← byteAt f 2) (← memRead f 3 2) (← byteAt f 5))
  | .digIn => do some (.digin (← byteAt f 2) (← byteAt f 3) (← byteAt f 4))
  | .anaIn => do some (.anain (← byteAt f 2) (← byteAt f 3) (← byteAt f 4) (← byteAt f 5))
  | .pwrOut => do some (.pwrout (← byteAt f 2) (← byteAt f 3) (← byteAt f 4))
  | .digOut => do some (.digout (← byteAt f 2) (← byteAt f 3) (← byteAt f 4))
  | .pwmOut => do some (.pwmout (← byteAt f 2) (← byteAt f 3) (← byteAt f 4))

/-! ### The decoder -/

/-- The frame kind of a verified frame with its fields, or why there is none. -/
def decodeVerified (ch : Channel) (v : Variant) (f : Bytes) : Except Reject Instr :=
  match classify f with
  | none => .error .badWindow
  | some k =>
    match lookup k ch v with
    | none => .error .unrecognised
    | some kind =>
      match parse kind f with
      | none => .error .badWindow
      | some i => .ok i

/-- The decoder: length, checksum, key lookup with channel qualifier and active variant, fields, in the fixed order of
60_exceptions.md R236. -/
def decode (ch : Channel) (v : Variant) (f : Bytes) : Except Reject Instr :=
  match verify f with
  | .lengthError => .error .lengthError
  | .verdict false => .error .checksumError
  | .verdict true => decodeVerified ch v f

/-- The port operation a transaction starts (10_state.md R30; the two `RXFRAME` rows differ in the channel, R78). -/
def portInstr : Trans → Instr
  | .rx .indicate f => .rxframeI f
  | .rx .notify f => .rxframeN f
  | .tx b csEn ack => .txbody b csEn ack
  | .disc => .disconnect
  | .rst => .reset

/-! ### The encoder -/

/-- The frame kind of an instruction; `none` for port operations and unit functions (R78). -/
def kindOf : Instr → Option Kind
  | .id _ _ _ _ _ => some .id
  | .batt _ => some .batt
  | .sbtn _ => some .sbtn
  | .button _ => some .button
  | .tap _ _ _ _ => some .tap
  | .shake _ _ _ _ => some .shake
  | .flip _ _ _ _ => some .flip
  | .orient _ _ _ _ _ _ _ _ => some .orient
  | .motion _ _ _ => some .motion
  | .bright _ _ _ _ _ => some .bright
  | .temphumid _ _ _ _ => some .tempHumid
  | .digchg _ _ => some .digChg
  | .anachg _ _ _ => some .anaChg
  | .digin _ _ _ => some .digIn
  | .anain _ _ _ _ => some .anaIn
  | .pwrout _ _ _ => some .pwrOut
  | .digout _ _ _ => some .digOut
  | .pwmout _ _ _ => some .pwmOut
  | .rxframeI _ | .rxframeN _ | .txbody _ _ _ | .disconnect | .reset => none
  | .sum8 _ | .verify _ | .append _ | .classify _ | .lookup _ _ _ => none
  | .u8 _ | .uintle _ | .intle16 _ | .scaledaccel _ | .scaledtemp _ | .ratio255 _ => none
  | .version _ | .x10 _ | .boolz _ | .boolnz _ | .encodewrite _ _ => none

/-- The payload bytes of a frame kind, indices 2 .. n-2, in frame order (R67). -/
def payload : Instr → Bytes
  | .id t serial ver pad battery => t :: (bytes4 serial ++ bytes3 ver ++ pad ++ [battery])
  | .batt b => [b]
  | .sbtn b => [b]
  | .button b => [b]
  | .tap x y z pad => bytes2 x ++ bytes2 y ++ bytes2 z ++ pad
  | .shake x y z pad => bytes2 x ++ bytes2 y ++ bytes2 z ++ pad
  | .flip x y z pad => bytes2 x ++ bytes2 y ++ bytes2 z ++ pad
  | .orient o b3 b4 b5 b6 b7 b8 pad => [o, b3, b4, b5, b6, b7, b8] ++ pad
  | .motion a b c => [a, b, c]
  | .bright r m b p pad => [r, m] ++ bytes2 b ++ bytes2 p ++ pad
  | .temphumid r m t h => [r, m] ++ bytes2 t ++ bytes2 h
  | .digchg p e => [p, e]
  | .anachg p pad l => p :: (pad ++ [l])
  | .digin r p l => [r, p, l]
  | .anain r p l m => [r, p, l, m]
  | .pwrout r p l => [r, p, l]
  | .digout r p l => [r, p, l]
  | .pwmout r p l => [r, p, l]
  | .rxframeI _ | .rxframeN _ | .txbody _ _ _ | .disconnect | .reset => []
  | .sum8 _ | .verify _ | .append _ | .classify _ | .lookup _ _ _ => []
  | .u8 _ | .uintle _ | .intle16 _ | .scaledaccel _ | .scaledtemp _ | .ratio255 _ => []
  | .version _ | .x10 _ | .boolz _ | .boolnz _ | .encodewrite _ _ => []

/-- The frame of a frame kind: `[category][subcommand][payload][checksum]` (R60).
Port operations and unit functions have no encoding (R78). -/
def encode (i : Instr) : Option Bytes :=
  (kindOf i).map fun k => append ([(keyOf k).category, (keyOf k).subcommand] ++ payload i)

/-! ### Words of the opcode table -/

/-- The frame that a key word of the opcode table stands for: that category, subcommand and length, a payload of
zeros, and a correct checksum (R62, R78; DESIGN CHOICE, log entry 15). -/
def tableFrame (nbits w : Nat) : Bytes :=
  let word := w % 2 ^ nbits
  let n := word % 256
  let head : Bytes := [BitVec.ofNat 8 (word / 65536), BitVec.ofNat 8 (word / 256)]
  if n < 3 then head.take n else append (head ++ List.replicate (n - 3) 0)

/-- The variants in the order of 00_scope.md R5. -/
def allVariants : List Variant :=
  [.none, .button, .led, .move, .motion, .brightness, .tempHumid, .gpio]

/-- The first variant under which a frame on `NOTIFY` decodes; `NONE` when it is a base frame or nothing. -/
def frameVariant (f : Bytes) : Variant :=
  (allVariants.find? fun v => (decode .notify v f).toOption.isSome).getD .none

/-- The instruction the decoder reads from a key word of the opcode table (log entry 15).
The frame is taken on `NOTIFY`, which every row admits, with the row's variant active. -/
def decodeTableWord (nbits w : Nat) : Option Instr :=
  if w % 2 ^ nbits < 2 ^ 24 then
    (decode .notify (frameVariant (tableFrame nbits w)) (tableFrame nbits w)).toOption
  else none

end Sys2Proof
end

