-- ==== Sys2Proof/Machine/State.lean ====
section
/-! DEFINITION. The state of one engine instance as plain data (10_state.md), the records on its output streams
(30_encoding.md R73 to R76), its faults and refusals, and the state after reset. -/

namespace Sys2Proof.Machine

/-- An event record: one constructor for each event name of 30_encoding.md R73, its fields in lane order with the
values of 00_scope.md R12. -/
inductive Event where
  | blockType (value : Byte)
  | serialNumber (value : Nat)
  | version (value : Win3)
  | batteryLevel (value : Nat)
  | blockTypeDetected (value : Byte)
  | statusButton (value : Byte)
  | button (status : Byte)
  | tap (x y z : Scaled)
  | shake (x y z : Scaled)
  | flip (x y z : Scaled)
  | orientation (orientation : Byte) (x y z : Scaled)
  | motion (arg0 arg1 arg2 : Byte)
  | brightness (requestId mode : Byte) (brightness proximity : Nat)
  | temphumid (requestId mode : Byte) (temperature : Scaled) (humidity : Int)
  | digitalChanged (pin edge : Byte)
  | analogChanged (pin : Byte) (level : Scaled)
  | digitalInput (requestId pin : Byte) (level : Bool)
  | analogInput (requestId pin : Byte) (level : Scaled) (mode : Byte)
  | powerOutput (requestId pin : Byte) (level : Bool)
  | digitalOutput (requestId pin : Byte) (level : Bool)
  | pwmOutput (requestId pin : Byte) (level : Scaled)
  deriving DecidableEq, Repr

/-- The two errors of the engine (60_exceptions.md R230); codes 0 and 3 are never emitted (30_encoding.md R74). -/
inductive ErrCode where
  | lengthError | checksumError
  deriving DecidableEq, Repr

/-- An error record `(code, ch, n)` (30_encoding.md R74). -/
structure ErrRec where
  code : ErrCode
  ch : Channel
  n : Nat
  deriving DecidableEq, Repr

/-- A write record `(bytes, ack)` (30_encoding.md R76). -/
structure WrRec where
  bytes : Bytes
  ack : Bool
  deriving DecidableEq, Repr

/-- The result of a unit function run on its own. -/
inductive UnitResult where
  | value (v : Value)
  | bytes (bs : Bytes)
  | verify (r : VerifyResult)
  | key (k : Key)
  | kind (k : Option Kind)
  deriving DecidableEq, Repr

/-- The state of one engine instance between two operations. -/
structure State where
  /-- The constants of the instance: `MAXLEN`, `BTYPE_MAP`, `ORIENT_XYZ_BASE` (10_state.md R32; log entry 1). -/
  params : Params
  /-- The port transactions not yet presented, in the order of the input trace (10_state.md R27, R30; log entry 3). -/
  input : List Trans
  /-- The index of the current operation in the input trace (10_state.md R27; log entry 6). -/
  opIndex : Nat
  /-- `BTYPE`, "byte or null": `none` is `BT_VALID = 0` (10_state.md R21). -/
  btype : Option Byte
  /-- The event stream `EV` (10_state.md R30; log entry 4). -/
  ev : List Event
  /-- The error stream `ER` (10_state.md R30; log entry 4). -/
  er : List ErrRec
  /-- The write stream `WR` (10_state.md R30; log entry 4). -/
  wr : List WrRec
  /-- The model's own: the results of unit functions run on their own (DESIGN CHOICE, log entry 5). -/
  ur : List UnitResult
  deriving DecidableEq, Repr

/-- What stops the machine: nothing does.
Both errors of the engine are recoverable and end in a next state, and the spec names no behaviour that stops it
(60_exceptions.md R230, R243; 93_implementation_defined.md, end of section 1; log entry 19). -/
inductive Fault where
  deriving DecidableEq, Repr

/-- Inputs outside the contract, to which the spec gives no meaning (60_exceptions.md R235). -/
inductive Refusal where
  /-- An instruction without a meaning in this model, by its mnemonic.
  Raised by no arm of `exec`; safe. -/
  | notModelled (mnemonic : String)
  /-- A byte sequence longer than `MAXLEN` on `RX` or `TX`, or one that `APPEND` or `ENCODEWRITE` would make longer.
  Raised by `RXFRAME`, `TXBODY`, `APPEND`, `ENCODEWRITE` (70_reset_and_hazards.md R268, 40_checksum.md R93, D19); safe. -/
  | overLength
  /-- A window of the wrong size or outside the frame, or `CLASSIFY` on fewer than two bytes.
  Raised by the unit functions on their own (20_memory.md R46, R140, D20); safe. -/
  | badWindow
  /-- An operation that is no frame kind where the receive pipeline expects one.
  Never raised, since the decoder gives frame kinds only; safe. -/
  | notFrameKind
  deriving DecidableEq, Repr

/-- The parameters of the reset state: unbounded, no code known, the default layout.
Only the last is the spec's (R6); the first two are DESIGN CHOICE (log entry 2). -/
def defaultParams : Params := ⟨none, Vector.replicate 256 Variant.none, .two⟩

/-- The machine right after reset, before anything is presented (10_state.md R31, 70_reset_and_hazards.md R260). -/
def State.reset : State where
  params := defaultParams
  input := []
  opIndex := 0
  btype := none
  ev := []
  er := []
  wr := []
  ur := []

end Sys2Proof.Machine
end

