-- ==== Sys2Proof/Machine/Ops.lean ====
section
/-! DEFINITION. The named operations on the state that every meaning is built from: the active variant, appending to
the streams, raising an error, writing and clearing `BTYPE`, and presenting the next transaction. -/

namespace Sys2Proof.Machine

/-- The answers of a meaning. -/
abbrev Result := Host.Outcome State Fault Refusal

/-- `BTYPE_MAP` applied to a block-type code (00_scope.md R5). -/
def mapCode (p : Params) (t : Byte) : Variant := p.btypeMap[t.toNat]'t.isLt

/-- A byte sequence of length `n` is within `MAXLEN` (00_scope.md R4). -/
def admits (p : Params) (n : Nat) : Bool :=
  match p.maxLen with
  | none => true
  | some m => decide (n ≤ m)

/-- `ACTIVE()`: `NONE` while `BTYPE` is null, else `BTYPE_MAP(BT_TYPE)` (10_state.md R24). -/
def State.active (s : State) : Variant :=
  match s.btype with
  | none => .none
  | some t => mapCode s.params t

/-- `EV <- e` for each event of the list, in order (00_scope.md R11). -/
def State.emit (s : State) (es : List Event) : State := { s with ev := s.ev ++ es }

/-- `WR <- (bytes, ack)` (00_scope.md R11). -/
def State.write (s : State) (bytes : Bytes) (ack : Bool) : State :=
  { s with wr := s.wr ++ [⟨bytes, ack⟩] }

/-- The result of a unit function run on its own (log entry 5). -/
def State.yield (s : State) (r : UnitResult) : State := { s with ur := s.ur ++ [r] }

/-- `BTYPE <- t` (10_state.md R21). -/
def State.identify (s : State) (t : Byte) : State := { s with btype := some t }

/-- `BTYPE <- null` (10_state.md R21, R23). -/
def State.clearSession (s : State) : State := { s with btype := none }

/-- Error entry, `ER <- (code, ch, n)` (60_exceptions.md R241): one record and nothing else.
No program counter or status is saved and no mode changes, so there is nothing to return to: recovery needs no
operation and the next operation is processed normally (R243). -/
def State.raise (s : State) (code : ErrCode) (ch : Channel) (n : Nat) : State :=
  { s with er := s.er ++ [⟨code, ch, n⟩] }

/-- An `RXFRAME` that ends in an error goes on: the error is a next state (60_exceptions.md R243). -/
def raiseError (code : ErrCode) (ch : Channel) (n : Nat) (s : State) : Result :=
  .next (s.raise code ch n)

/-- A unit function on an operand that may be no window of its size (20_memory.md R46, D20). -/
def yieldOr (r : Option UnitResult) (s : State) : Result :=
  match r with
  | some v => .next (s.yield v)
  | none => .refused .badWindow

/-- An operation on a byte sequence that must be within `MAXLEN` (70_reset_and_hazards.md R268). -/
def whenAdmitted (n : Nat) (s : State) (r : Result) : Result :=
  if admits s.params n then r else .refused .overLength

/-- Presenting the next transaction of the input trace: the port operation it starts, and the state with the
transaction taken from the trace and the index advanced by 1 (10_state.md R27, R30). -/
def fetch (s : State) : Option (Instr × State) :=
  match s.input with
  | [] => none
  | t :: rest => some (portInstr t, { s with input := rest, opIndex := s.opIndex + 1 })

/-- The state with a variant active, changed only where another one is (log entry 15). -/
def State.activate (s : State) (v : Variant) : State :=
  if v = .none ∨ s.active = v then s
  else
    { s with
      btype := some (s.btype.getD 0)
      params := { s.params with
        btypeMap := s.params.btypeMap.set (s.btype.getD 0).toNat v (s.btype.getD 0).isLt } }

end Sys2Proof.Machine
end

