-- ==== Sys2Proof/Machine/Checksum.lean ====
section
/-! DEFINITION. The Checksum Codec as unit operations (40_checksum.md R90, R91, R93, R96). -/

namespace Sys2Proof.Machine

/-- `SUM8` (R90): total on every sequence. -/
def execSum8 (bytes : Bytes) (s : State) : Result :=
  .next (s.yield (.value (.byte (sum8 bytes))))

/-- `VERIFY` on its own (R91): its result is `LengthError` or a boolean, and it emits no record (R96). -/
def execVerify (f : Bytes) (s : State) : Result :=
  .next (s.yield (.verify (verify f)))

/-- `APPEND` (R93): `|b| + 1` must not exceed `MAXLEN`. -/
def execAppend (b : Bytes) (s : State) : Result :=
  whenAdmitted (b.length + 1) s (.next (s.yield (.bytes (append b))))

end Sys2Proof.Machine
end

