-- ==== Sys2Proof/Machine/Classifier.lean ====
section
/-! DEFINITION. The Frame Classifier as unit operations (41_classifier.md R110, R112, R117). -/

namespace Sys2Proof.Machine

/-- `CLASSIFY` (R110): refused on fewer than two bytes. -/
def execClassify (f : Bytes) (s : State) : Result :=
  yieldOr ((classify f).map .key) s

/-- `LOOKUP` (R112): a frame kind or none. -/
def execLookup (k : Key) (ch : Channel) (v : Variant) (s : State) : Result :=
  .next (s.yield (.kind (lookup k ch v)))

end Sys2Proof.Machine
end

