-- ==== Sys2Proof/Machine/BaseFrames.lean ====
section
/-! DEFINITION. The three base frame kinds (43_base_frames.md R161 to R163). -/

namespace Sys2Proof.Machine

/-- `ID` (R161): four events, and on the transition from null the write of `BTYPE` and the detection signal.
A later `ID` frame leaves `BTYPE` as it is (D21). -/
def execId (t : Byte) (serial : Win4) (ver : Win3) (_pad : Bytes) (battery : Byte) (s : State) : Result :=
  let s1 := s.emit
    [.blockType (u8 t), .serialNumber (uintLE (bytes4 serial)), .version (version ver),
     .batteryLevel (x10 (u8 battery).toNat)]
  if isNull s.btype then .next ((s1.identify (u8 t)).emit [.blockTypeDetected (u8 t)]) else .next s1

/-- `BATT` (R162). -/
def execBatt (battery : Byte) (s : State) : Result :=
  .next (s.emit [.batteryLevel (x10 (u8 battery).toNat)])

/-- `SBTN` (R163). -/
def execSbtn (status : Byte) (s : State) : Result :=
  .next (s.emit [.statusButton (u8 status)])

end Sys2Proof.Machine
end

