-- ==== Sys2Proof/Machine/CommandEncoder.lean ====
section
/-! DEFINITION. The Command Encoder (45_command_encoder.md R220 to R223): the body is opaque, and the encoder reads no
byte of it for any purpose but the sum. -/

namespace Sys2Proof.Machine

/-- `ENCODEWRITE(b, cs_en)`: `APPEND(b)`, or the body unchanged (R220). -/
def encodeWrite (b : Bytes) (csEn : Bool) : Bytes := if csEn then append b else b

/-- `ENCODEWRITE` for a caller who does not say: the checksum is appended (R220). -/
def encodeWriteDefault (b : Bytes) : Bytes := encodeWrite b true

/-- The transaction on port `TX` for a caller who does not say: the append-checksum flag is 1 (10_state.md R30). -/
def txDefault (b : Bytes) (ack : Bool) : Trans := .tx b true ack

/-- The length of the output sequence for a body, which `MAXLEN` bounds: a body of up to `MAXLEN - 1` bytes with
`cs_en` = 1, of up to `MAXLEN` with 0 (R220, 70_reset_and_hazards.md R268). -/
def outLength (b : Bytes) (csEn : Bool) : Nat := if csEn then b.length + 1 else b.length

/-- `ENCODEWRITE` as a unit operation (R220). -/
def execEncodewrite (b : Bytes) (csEn : Bool) (s : State) : Result :=
  whenAdmitted (outLength b csEn) s (.next (s.yield (.bytes (encodeWrite b csEn))))

/-- `TXBODY`: one write record, with the delivery mode passed through (R220, R221). -/
def execTxbody (b : Bytes) (csEn ack : Bool) (s : State) : Result :=
  whenAdmitted (outLength b csEn) s (.next (s.write (encodeWrite b csEn) ack))

end Sys2Proof.Machine
end

