-- ==== Sys2Proof/Machine/VariantFrames.lean ====
section
/-! DEFINITION. The fifteen variant frame kinds (44_variant_frames.md): each emits exactly one event and touches no
other state (R190). That the kind's variant is active is settled by `LOOKUP` before (R112, R190). -/

namespace Sys2Proof.Machine

/-- `BUTTON` (R191). -/
def execButton (status : Byte) (s : State) : Result :=
  .next (s.emit [.button (u8 status)])

/-- `TAP` (R192). -/
def execTap (x y z : Win2) (_pad : Bytes) (s : State) : Result :=
  .next (s.emit [.tap (scaledAccel x) (scaledAccel y) (scaledAccel z)])

/-- `SHAKE` (R193). -/
def execShake (x y z : Win2) (_pad : Bytes) (s : State) : Result :=
  .next (s.emit [.shake (scaledAccel x) (scaledAccel y) (scaledAccel z)])

/-- `FLIP` (R194). -/
def execFlip (x y z : Win2) (_pad : Bytes) (s : State) : Result :=
  .next (s.emit [.flip (scaledAccel x) (scaledAccel y) (scaledAccel z)])

/-- `ORIENT` (R195): x, y and z start at index `ORIENT_XYZ_BASE`; with 2 the first byte is shared with
`orientation`. -/
def execOrient (o b3 b4 b5 b6 b7 b8 : Byte) (_pad : Bytes) (s : State) : Result :=
  match s.params.orientBase with
  | .two =>
    .next (s.emit [.orientation (u8 o) (scaledAccel ⟨o, b3⟩) (scaledAccel ⟨b4, b5⟩) (scaledAccel ⟨b6, b7⟩)])
  | .three =>
    .next (s.emit [.orientation (u8 o) (scaledAccel ⟨b3, b4⟩) (scaledAccel ⟨b5, b6⟩) (scaledAccel ⟨b7, b8⟩)])

/-- `MOTION` (R196). -/
def execMotion (arg0 arg1 arg2 : Byte) (s : State) : Result :=
  .next (s.emit [.motion (u8 arg0) (u8 arg1) (u8 arg2)])

/-- `BRIGHT` (R197): the proximity is ten times the 16-bit value, not reduced. -/
def execBright (requestId mode : Byte) (brightness proximity : Win2) (_pad : Bytes) (s : State) : Result :=
  .next (s.emit
    [.brightness (u8 requestId) (u8 mode) (uintLE (bytes2 brightness)) (x10 (uintLE (bytes2 proximity)))])

/-- `TEMPHUMID` (R198): the humidity is the raw `INTLE16`, unscaled. -/
def execTemphumid (requestId mode : Byte) (temperature humidity : Win2) (s : State) : Result :=
  .next (s.emit [.temphumid (u8 requestId) (u8 mode) (scaledTemp temperature) (intLE16 humidity)])

/-- `DIGCHG` (R199). -/
def execDigchg (pin edge : Byte) (s : State) : Result :=
  .next (s.emit [.digitalChanged (u8 pin) (u8 edge)])

/-- `ANACHG` (R200). -/
def execAnachg (pin : Byte) (_pad : Bytes) (level : Byte) (s : State) : Result :=
  .next (s.emit [.analogChanged (u8 pin) (ratio255 level)])

/-- `DIGIN` (R201): the level is true when the byte is zero. -/
def execDigin (requestId pin level : Byte) (s : State) : Result :=
  .next (s.emit [.digitalInput (u8 requestId) (u8 pin) (boolZ level)])

/-- `ANAIN` (R202). -/
def execAnain (requestId pin level mode : Byte) (s : State) : Result :=
  .next (s.emit [.analogInput (u8 requestId) (u8 pin) (ratio255 level) (u8 mode)])

/-- `PWROUT` (R203). -/
def execPwrout (requestId pin level : Byte) (s : State) : Result :=
  .next (s.emit [.powerOutput (u8 requestId) (u8 pin) (boolNZ level)])

/-- `DIGOUT` (R204). -/
def execDigout (requestId pin level : Byte) (s : State) : Result :=
  .next (s.emit [.digitalOutput (u8 requestId) (u8 pin) (boolNZ level)])

/-- `PWMOUT` (R205). -/
def execPwmout (requestId pin level : Byte) (s : State) : Result :=
  .next (s.emit [.pwmOutput (u8 requestId) (u8 pin) (ratio255 level)])

end Sys2Proof.Machine
end

