-- ==== Sys2Proof/Machine/Ports.lean ====
section
/-! DEFINITION. The receive pipeline `RXFRAME` (43_base_frames.md R160) and the two port operations that clear the
session (R165, R166), with the outcomes of 00_scope.md R13. -/

namespace Sys2Proof.Machine

/-- "execute the frame kind's rule on f" (R160): the meaning of the frame kind that the decoder gave. -/
def runFrame (i : Instr) (s : State) : Result :=
  match i with
  | .id t serial ver pad battery => execId t serial ver pad battery s
  | .batt b => execBatt b s
  | .sbtn st => execSbtn st s
  | .button st => execButton st s
  | .tap x y z pad => execTap x y z pad s
  | .shake x y z pad => execShake x y z pad s
  | .flip x y z pad => execFlip x y z pad s
  | .orient o b3 b4 b5 b6 b7 b8 pad => execOrient o b3 b4 b5 b6 b7 b8 pad s
  | .motion a b c => execMotion a b c s
  | .bright r m b p pad => execBright r m b p pad s
  | .temphumid r m t h => execTemphumid r m t h s
  | .digchg p e => execDigchg p e s
  | .anachg p pad l => execAnachg p pad l s
  | .digin r p l => execDigin r p l s
  | .anain r p l m => execAnain r p l m s
  | .pwrout r p l => execPwrout r p l s
  | .digout r p l => execDigout r p l s
  | .pwmout r p l => execPwmout r p l s
  | .rxframeI _ | .rxframeN _ | .txbody _ _ _ | .disconnect | .reset => .refused .notFrameKind
  | .sum8 _ | .verify _ | .append _ | .classify _ | .lookup _ _ _ => .refused .notFrameKind
  | .u8 _ | .uintle _ | .intle16 _ | .scaledaccel _ | .scaledtemp _ | .ratio255 _ => .refused .notFrameKind
  | .version _ | .x10 _ | .boolz _ | .boolnz _ | .encodewrite _ _ => .refused .notFrameKind

/-- `RXFRAME(ch, f)` after the length contract: the checks of R236 in their order, then the frame kind's rule.
The active variant is read at the start of the operation (41_classifier.md R114). -/
def receive (ch : Channel) (f : Bytes) (s : State) : Result :=
  match decode ch s.active f with
  | .error .lengthError => raiseError .lengthError ch f.length s
  | .error .checksumError => raiseError .checksumError ch f.length s
  | .error .unrecognised => .next s
  | .error .badWindow => .refused .badWindow
  | .ok i => runFrame i s

/-- `RXFRAME(ch, f)`: a frame longer than `MAXLEN` is outside the contract (R160, 70_reset_and_hazards.md R268). -/
def rxFrame (ch : Channel) (f : Bytes) (s : State) : Result :=
  whenAdmitted f.length s (receive ch f s)

/-- `RXFRAME.I`: a frame on the indicate channel (R160). -/
def execRxframeI (f : Bytes) (s : State) : Result := rxFrame .indicate f s

/-- `RXFRAME.N`: a frame on the notify channel (R160). -/
def execRxframeN (f : Bytes) (s : State) : Result := rxFrame .notify f s

/-- `DISCONNECT`: `BTYPE <- null`, no record (R165). -/
def execDisconnect (s : State) : Result := .next s.clearSession

/-- `RESET`: `BTYPE <- null`, no record; the parameters are untouched (R166). -/
def execReset (s : State) : Result := .next s.clearSession

/-- The outcomes of a port operation (00_scope.md R13): names for what the rules emit, not state. -/
inductive OpOutcome where
  | decoded (k : Kind) | ignored | lengthError | checksumError | written | cleared
  deriving DecidableEq, Repr

/-- The outcome of a received frame under an active variant (R13, R160); `none` where the decoder reads outside the
frame, which it never does (20_memory.md R46). -/
def rxOutcome (ch : Channel) (v : Variant) (f : Bytes) : Option OpOutcome :=
  match decode ch v f with
  | .error .lengthError => some .lengthError
  | .error .checksumError => some .checksumError
  | .error .unrecognised => some .ignored
  | .error .badWindow => none
  | .ok i => (kindOf i).map .decoded

/-- The outcome of the port operation a transaction starts in a state (R13); `none` outside the length contract. -/
def opOutcome (t : Trans) (s : State) : Option OpOutcome :=
  match t with
  | .rx ch f => if admits s.params f.length then rxOutcome ch s.active f else none
  | .tx b csEn _ => if admits s.params (outLength b csEn) then some .written else none
  | .disc => some .cleared
  | .rst => some .cleared

end Sys2Proof.Machine
end

