-- ==== Sys2Proof/Machine/ValueDecoders.lean ====
section
/-! DEFINITION. The Value Decoders as unit operations (42_value_decoders.md): each takes a window of exactly its size,
and refuses any other (R140, R269). -/

namespace Sys2Proof.Machine

/-- `U8` (R130). -/
def execU8 (w : Bytes) (s : State) : Result :=
  yieldOr ((asByte w).map fun b => .value (.byte (u8 b))) s

/-- `UINTLE` (R131): defined for any number of bytes. -/
def execUintle (w : Bytes) (s : State) : Result :=
  .next (s.yield (.value (.uint (uintLE w))))

/-- `INTLE16` (R132). -/
def execIntle16 (w : Bytes) (s : State) : Result :=
  yieldOr ((asWin2 w).map fun p => .value (.sint (intLE16 p))) s

/-- `SCALEDACCEL` (R133). -/
def execScaledaccel (w : Bytes) (s : State) : Result :=
  yieldOr ((asWin2 w).map fun p => .value (.scaled (scaledAccel p))) s

/-- `SCALEDTEMP` (R134). -/
def execScaledtemp (w : Bytes) (s : State) : Result :=
  yieldOr ((asWin2 w).map fun p => .value (.scaled (scaledTemp p))) s

/-- `RATIO255` (R135). -/
def execRatio255 (w : Bytes) (s : State) : Result :=
  yieldOr ((asByte w).map fun b => .value (.scaled (ratio255 b))) s

/-- `VERSION` (R136). -/
def execVersion (w : Bytes) (s : State) : Result :=
  yieldOr ((asWin3 w).map fun p => .value (.version (version p))) s

/-- `X10` (R137). -/
def execX10 (u : X10Arg) (s : State) : Result :=
  .next (s.yield (.value (.uint (x10 (x10Operand u)))))

/-- `BOOLZ` (R138). -/
def execBoolz (w : Bytes) (s : State) : Result :=
  yieldOr ((asByte w).map fun b => .value (.bool (boolZ b))) s

/-- `BOOLNZ` (R139). -/
def execBoolnz (w : Bytes) (s : State) : Result :=
  yieldOr ((asByte w).map fun b => .value (.bool (boolNZ b))) s

end Sys2Proof.Machine
end

