-- ==== Sys2Proof/Machine/Dispatch.lean ====
section
/-! DEFINITION. `exec`: one arm for each operation of spec/opcode_table.json, in the table's order. -/

namespace Sys2Proof.Machine

def exec (i : Instr) (s : State) : Host.Outcome State Fault Refusal :=
  match i with
  | .id t serial ver pad battery => Sys2Proof.Machine.execId t serial ver pad battery s
  | .batt b => Sys2Proof.Machine.execBatt b s
  | .sbtn st => Sys2Proof.Machine.execSbtn st s
  | .button st => Sys2Proof.Machine.execButton st s
  | .tap x y z pad => Sys2Proof.Machine.execTap x y z pad s
  | .shake x y z pad => Sys2Proof.Machine.execShake x y z pad s
  | .flip x y z pad => Sys2Proof.Machine.execFlip x y z pad s
  | .orient o b3 b4 b5 b6 b7 b8 pad => Sys2Proof.Machine.execOrient o b3 b4 b5 b6 b7 b8 pad s
  | .motion a b c => Sys2Proof.Machine.execMotion a b c s
  | .bright r m b p pad => Sys2Proof.Machine.execBright r m b p pad s
  | .temphumid r m t h => Sys2Proof.Machine.execTemphumid r m t h s
  | .digchg p e => Sys2Proof.Machine.execDigchg p e s
  | .anachg p pad l => Sys2Proof.Machine.execAnachg p pad l s
  | .digin r p l => Sys2Proof.Machine.execDigin r p l s
  | .anain r p l m => Sys2Proof.Machine.execAnain r p l m s
  | .pwrout r p l => Sys2Proof.Machine.execPwrout r p l s
  | .digout r p l => Sys2Proof.Machine.execDigout r p l s
  | .pwmout r p l => Sys2Proof.Machine.execPwmout r p l s
  | .rxframeI f => Sys2Proof.Machine.execRxframeI f s
  | .rxframeN f => Sys2Proof.Machine.execRxframeN f s
  | .txbody b csEn ack => Sys2Proof.Machine.execTxbody b csEn ack s
  | .disconnect => Sys2Proof.Machine.execDisconnect s
  | .reset => Sys2Proof.Machine.execReset s
  | .sum8 bytes => Sys2Proof.Machine.execSum8 bytes s
  | .verify f => Sys2Proof.Machine.execVerify f s
  | .append b => Sys2Proof.Machine.execAppend b s
  | .classify f => Sys2Proof.Machine.execClassify f s
  | .lookup k ch v => Sys2Proof.Machine.execLookup k ch v s
  | .u8 w => Sys2Proof.Machine.execU8 w s
  | .uintle w => Sys2Proof.Machine.execUintle w s
  | .intle16 w => Sys2Proof.Machine.execIntle16 w s
  | .scaledaccel w => Sys2Proof.Machine.execScaledaccel w s
  | .scaledtemp w => Sys2Proof.Machine.execScaledtemp w s
  | .ratio255 w => Sys2Proof.Machine.execRatio255 w s
  | .version w => Sys2Proof.Machine.execVersion w s
  | .x10 u => Sys2Proof.Machine.execX10 u s
  | .boolz w => Sys2Proof.Machine.execBoolz w s
  | .boolnz w => Sys2Proof.Machine.execBoolnz w s
  | .encodewrite b csEn => Sys2Proof.Machine.execEncodewrite b csEn s

end Sys2Proof.Machine
end

