-- ==== Sys2Proof/Machine/Step.lean ====
section
/-! DEFINITION. One step of the engine: one port operation, presented by the input trace and run to completion
(20_memory.md R51, 70_reset_and_hazards.md R274). -/

namespace Sys2Proof.Machine

/-- One step: the next transaction's port operation, or nothing where no transaction is presented (60_exceptions.md
R248; log entry 3). -/
def step (s : State) : Host.Outcome State Fault Refusal :=
  match fetch s with
  | none => .next s
  | some (i, s1) => exec i s1

/-- The state whose next transaction delivers, on `NOTIFY`, the frame that a key word of the opcode table stands for,
with the frame's variant active, so that the next step runs exactly that frame kind (log entry 15). -/
def State.withFetchWord (s : State) (nbits w : Nat) : State :=
  let s1 := s.activate (frameVariant (tableFrame nbits w))
  { s1 with input := .rx .notify (tableFrame nbits w) :: s1.input }

end Sys2Proof.Machine
end

