-- ==== Sys2Proof/Machine/Records.lean ====
section
/-! DEFINITION. The encodings of the records on the output ports (30_encoding.md R73 to R76): event names, `EVID`,
fields, 32-bit lanes; error codes and the saturated length; the channel bit. -/

namespace Sys2Proof.Machine

/-- The event's name (R73). -/
def Event.name : Event → String
  | .blockType _ => "block_type"
  | .serialNumber _ => "serial_number"
  | .version _ => "version"
  | .batteryLevel _ => "battery_level"
  | .blockTypeDetected _ => "block_type_detected"
  | .statusButton _ => "status_button"
  | .button _ => "button"
  | .tap _ _ _ => "tap"
  | .shake _ _ _ => "shake"
  | .flip _ _ _ => "flip"
  | .orientation _ _ _ _ => "orientation"
  | .motion _ _ _ => "motion"
  | .brightness _ _ _ _ => "brightness"
  | .temphumid _ _ _ _ => "temphumid"
  | .digitalChanged _ _ => "digital_changed"
  | .analogChanged _ _ => "analog_changed"
  | .digitalInput _ _ _ => "digital_input"
  | .analogInput _ _ _ _ => "analog_input"
  | .powerOutput _ _ _ => "power_output"
  | .digitalOutput _ _ _ => "digital_output"
  | .pwmOutput _ _ _ => "pwm_output"

/-- The event's number `EVID`, 5 bits (R73). -/
def Event.evid : Event → BitVec 5
  | .blockType _ => 1
  | .serialNumber _ => 2
  | .version _ => 3
  | .batteryLevel _ => 4
  | .blockTypeDetected _ => 5
  | .statusButton _ => 6
  | .button _ => 7
  | .tap _ _ _ => 8
  | .shake _ _ _ => 9
  | .flip _ _ _ => 10
  | .orientation _ _ _ _ => 11
  | .motion _ _ _ => 12
  | .brightness _ _ _ _ => 13
  | .temphumid _ _ _ _ => 14
  | .digitalChanged _ _ => 15
  | .analogChanged _ _ => 16
  | .digitalInput _ _ _ => 17
  | .analogInput _ _ _ _ => 18
  | .powerOutput _ _ _ => 19
  | .digitalOutput _ _ _ => 20
  | .pwmOutput _ _ _ => 21

/-- The event's fields by name, in lane order (R67, R73). -/
def Event.fields : Event → List (String × Value)
  | .blockType v => [("value", .byte v)]
  | .serialNumber v => [("value", .uint v)]
  | .version v => [("value", .version v)]
  | .batteryLevel v => [("value", .uint v)]
  | .blockTypeDetected v => [("value", .byte v)]
  | .statusButton v => [("value", .byte v)]
  | .button st => [("status", .byte st)]
  | .tap x y z => [("x", .scaled x), ("y", .scaled y), ("z", .scaled z)]
  | .shake x y z => [("x", .scaled x), ("y", .scaled y), ("z", .scaled z)]
  | .flip x y z => [("x", .scaled x), ("y", .scaled y), ("z", .scaled z)]
  | .orientation o x y z =>
    [("orientation", .byte o), ("x", .scaled x), ("y", .scaled y), ("z", .scaled z)]
  | .motion a b c => [("arg0", .byte a), ("arg1", .byte b), ("arg2", .byte c)]
  | .brightness r m b p =>
    [("request_id", .byte r), ("mode", .byte m), ("brightness", .uint b), ("proximity", .uint p)]
  | .temphumid r m t h =>
    [("request_id", .byte r), ("mode", .byte m), ("temperature", .scaled t), ("humidity", .sint h)]
  | .digitalChanged p e => [("pin", .byte p), ("edge", .byte e)]
  | .analogChanged p l => [("pin", .byte p), ("level", .scaled l)]
  | .digitalInput r p l => [("request_id", .byte r), ("pin", .byte p), ("level", .bool l)]
  | .analogInput r p l m =>
    [("request_id", .byte r), ("pin", .byte p), ("level", .scaled l), ("mode", .byte m)]
  | .powerOutput r p l => [("request_id", .byte r), ("pin", .byte p), ("level", .bool l)]
  | .digitalOutput r p l => [("request_id", .byte r), ("pin", .byte p), ("level", .bool l)]
  | .pwmOutput r p l => [("request_id", .byte r), ("pin", .byte p), ("level", .scaled l)]

/-- The 32-bit lane that carries a value; of a scaled value it carries the numerator only (R73). -/
def laneOf : Value → BitVec 32
  | .byte b => b.setWidth 32
  | .uint n => BitVec.ofNat 32 n
  | .sint z => BitVec.ofInt 32 z
  | .bool b => if b then 1 else 0
  | .version v => (0x00 : Byte) ++ v.b0 ++ v.b1 ++ v.b2
  | .scaled v => BitVec.ofInt 32 v.num

/-- The lanes `ev_f0`, `ev_f1`, ... of an event record (R73). -/
def Event.lanes (e : Event) : List (BitVec 32) := e.fields.map fun p => laneOf p.2

/-- The events a variant frame kind emits; all others are base events (R64, R65). -/
def Event.fromVariant : Event → Bool
  | .blockType _ | .serialNumber _ | .version _ | .batteryLevel _ => false
  | .blockTypeDetected _ | .statusButton _ => false
  | .button _ | .tap _ _ _ | .shake _ _ _ | .flip _ _ _ | .orientation _ _ _ _ => true
  | .motion _ _ _ | .brightness _ _ _ _ | .temphumid _ _ _ _ => true
  | .digitalChanged _ _ | .analogChanged _ _ | .digitalInput _ _ _ | .analogInput _ _ _ _ => true
  | .powerOutput _ _ _ | .digitalOutput _ _ _ | .pwmOutput _ _ _ => true

/-- The one-time detection signal (43_base_frames.md R161). -/
def Event.isDetection : Event → Bool
  | .blockTypeDetected _ => true
  | .blockType _ | .serialNumber _ | .version _ | .batteryLevel _ | .statusButton _ => false
  | .button _ | .tap _ _ _ | .shake _ _ _ | .flip _ _ _ | .orientation _ _ _ _ => false
  | .motion _ _ _ | .brightness _ _ _ _ | .temphumid _ _ _ _ => false
  | .digitalChanged _ _ | .analogChanged _ _ | .digitalInput _ _ _ | .analogInput _ _ _ _ => false
  | .powerOutput _ _ _ | .digitalOutput _ _ _ | .pwmOutput _ _ _ => false

/-- The error code on the port, 2 bits (R74). -/
def errCode : ErrCode → BitVec 2
  | .lengthError => 1
  | .checksumError => 2

/-- The channel bit (R75). -/
def chanBit : Channel → BitVec 1
  | .indicate => 0
  | .notify => 1

/-- An error record on the port: code, channel bit, the length saturated at 255 (R74). -/
def ErrRec.onPort (r : ErrRec) : BitVec 2 × BitVec 1 × BitVec 8 :=
  (errCode r.code, chanBit r.ch, BitVec.ofNat 8 (min r.n 255))

/-- A write record on the port: the bytes, and the `ack` bit (R76). -/
def WrRec.onPort (r : WrRec) : Bytes × BitVec 1 := (r.bytes, if r.ack then 1 else 0)

/-- `BTYPE` as its 9 bits where they all have a meaning: `BT_VALID` = 1 in bit 8 and `BT_TYPE` in bits [7:0].
Under `BT_VALID` = 0 the bits of `BT_TYPE` cannot be read (10_state.md R21), so there is no word. -/
def btypeWord : Option Byte → Option (BitVec 9)
  | some t => some ((1 : BitVec 1) ++ t)
  | none => none

end Sys2Proof.Machine
end

