-- ==== Sys2Proof/Safety.lean ====
section
/-! DEFINITION. What a safe run is, in the terms the claims use: the contract on the environment, the legal records,
and the invariant of the machine. -/

namespace Sys2Proof.Machine

/-- `MAXLEN` is at least 17, the longest frame in any dispatch table, or unbounded (00_scope.md R4). -/
def paramsWf (p : Params) : Bool :=
  match p.maxLen with
  | none => true
  | some m => decide (17 ≤ m)

/-- The length contract on a transaction (70_reset_and_hazards.md R268). -/
def inContract (p : Params) : Trans → Bool
  | .rx _ f => admits p f.length
  | .tx b csEn _ => admits p (outLength b csEn)
  | .disc => true
  | .rst => true

/-- A transaction that ends the connection: a disconnect or a reset (10_state.md R23). -/
def clearsSession : Trans → Bool
  | .rx _ _ => false
  | .tx _ _ _ => false
  | .disc => true
  | .rst => true

/-- A scaled value with the denominator of its decoder and a numerator in the range of `INTLE16`
(42_value_decoders.md R132 to R134). -/
def signedOver (den : Nat) (v : Scaled) : Bool :=
  v.den == den && decide (-32768 ≤ v.num ∧ v.num ≤ 32767)

/-- A scaled value over 255 with a byte as its numerator (R135). -/
def levelOver255 (v : Scaled) : Bool :=
  v.den == 255 && decide (0 ≤ v.num ∧ v.num ≤ 255)

/-- An event record whose values lie in the ranges of their decoder types (30_encoding.md R66). -/
def Event.legal : Event → Bool
  | .serialNumber v => decide (v ≤ 4294967295)
  | .batteryLevel v => decide (v ≤ 2550 ∧ v % 10 = 0)
  | .tap x y z => signedOver 1024 x && signedOver 1024 y && signedOver 1024 z
  | .shake x y z => signedOver 1024 x && signedOver 1024 y && signedOver 1024 z
  | .flip x y z => signedOver 1024 x && signedOver 1024 y && signedOver 1024 z
  | .orientation _ x y z => signedOver 1024 x && signedOver 1024 y && signedOver 1024 z
  | .brightness _ _ b p => decide (b ≤ 65535 ∧ p ≤ 655350 ∧ p % 10 = 0)
  | .temphumid _ _ t h => signedOver 10 t && decide (-32768 ≤ h ∧ h ≤ 32767)
  | .analogChanged _ l => levelOver255 l
  | .analogInput _ _ l _ => levelOver255 l
  | .pwmOutput _ _ l => levelOver255 l
  | .blockType _ | .version _ | .blockTypeDetected _ | .statusButton _ | .button _ => true
  | .motion _ _ _ | .digitalChanged _ _ => true
  | .digitalInput _ _ _ | .powerOutput _ _ _ | .digitalOutput _ _ _ => true

/-- An error record the engine can emit: `LengthError` exactly below 3 bytes, `ChecksumError` from 3 up, and never a
frame longer than `MAXLEN` (60_exceptions.md R231, R232; 00_scope.md R4). -/
def ErrRec.legal (p : Params) (r : ErrRec) : Bool :=
  admits p r.n &&
    match r.code with
    | .lengthError => decide (r.n < 3)
    | .checksumError => decide (3 ≤ r.n)

/-- The invariant of the machine: what every step keeps, whatever is presented. -/
structure Inv (s : State) : Prop where
  params : paramsWf s.params = true
  events : ∀ e ∈ s.ev, e.legal = true
  errors : ∀ r ∈ s.er, r.legal s.params = true
  writes : ∀ w ∈ s.wr, admits s.params w.bytes.length = true

/-- A run in which the environment keeps its length contract. -/
def TraceInContract (s : State) : Prop := ∀ t ∈ s.input, inContract s.params t = true

end Sys2Proof.Machine
end

