-- ==== Sys2Proof/Certificates/Slice0/Obligations.lean ====
section
/-! DEFINITION. The statements for the provers, file by file of spec/. Values are spelled out in the statements as the
rules give them. The premise `admits s.params n` is the environment's length contract (70_reset_and_hazards.md R268).
That the result of a unit function run on its own is appended to `ur` is the model's choice (log entry 5).
`{ s with ev := .. }` says the frame: every other part of the state is unchanged. -/

open Sys2Proof Sys2Proof.Machine

namespace Sys2Proof.Claims

/-- `RXFRAME` of the valid frame made of a body (category, subcommand, payload) and its checksum. -/
def received (ch : Channel) (body : Bytes) : Instr := portInstr (.rx ch (body ++ [sum8 body]))

/-- While variant `v` is active (R190), its frame kind `i`, whose frame is `body` and its checksum, emits exactly the
event `e` and changes nothing else: as an instruction, and through `RXFRAME` on either channel (no variant kind has a
channel qualifier, R190; D9, log entry 13). -/
def EmitsOne (v : Variant) (i : Instr) (body : Bytes) (s : State) (e : Event) : Prop :=
  s.active = v →
    exec i s = .next { s with ev := s.ev ++ [e] } ∧
      ∀ ch : Channel, admits s.params (body.length + 1) = true →
        exec (received ch body) s = .next { s with ev := s.ev ++ [e] }

/-- The key of the identification frame (30_encoding.md R64). -/
def idKey : Key := ⟨0x00, 0x02, 16⟩

/-- What a table row makes of a frame: the event's name and its fields, decoded by their types (R66, R67). -/
def tableEvent (f : Bytes) (row : String × List Field) : String × List (String × Option Value) :=
  (row.1, row.2.map fun fd => (fd.name, decodeField f fd))

/-- The same view of an event record. -/
def eventView (e : Event) : String × List (String × Option Value) :=
  (e.name, e.fields.map fun p => (p.1, some p.2))

/-- The name, the number and the field names of an event record (R73). -/
def eventHead (e : Event) : Nat × String × List String := (e.evid.toNat, e.name, e.fields.map Prod.fst)

/-- Port operations one after the other, each from the state the last one left (R51). -/
def presentAll : List Trans → State → Host.Outcome State Fault Refusal
  | [], s => .next s
  | tr :: rest, s =>
    match exec (portInstr tr) s with
    | .next s' => presentAll rest s'
    | .fault r => .fault r
    | .refused r => .refused r

/-- The little-endian number in the `n` bytes of `f` from index `i` on (R43). -/
def numberAt (f : Bytes) (i n : Nat) : Nat :=
  ((List.range n).map fun k => (f.getD (i + k) 0).toNat <<< (8 * k)).sum

end Sys2Proof.Claims

open Sys2Proof.Claims

/-! ### Checksum Codec (40_checksum.md) -/

/-- R90: `SUM8` is the sum of the bytes modulo 256, equally an 8-bit accumulator, whatever the order of the bytes. The
result goes to `ur` (log entry 5). -/
def Obligations.Sum8IsSumModulo256 : Prop :=
  ∀ (bs : Bytes) (s : State),
    (∃ c : Byte, exec (.sum8 bs) s = .next { s with ur := s.ur ++ [.value (.byte c)] } ∧
      c.toNat = (bs.map BitVec.toNat).sum % 256 ∧ c = bs.foldl (fun acc v => acc + v) 0) ∧
    ∀ cs : Bytes, bs.Perm cs → sum8 cs = sum8 bs

/-- R91: the length test comes first; from 3 bytes up the result is `((Σ f) - last) mod 256 == last`. The result goes
to `ur` (log entry 5). -/
def Obligations.VerifyComparesSumWithLastByte : Prop :=
  ∀ (f : Bytes) (s : State),
    exec (.verify f) s = .next { s with ur := s.ur ++ [.verify (verify f)] } ∧
    (f.length < 3 → verify f = .lengthError) ∧
    ∀ (body : Bytes) (c : Byte), f = body ++ [c] → 3 ≤ f.length →
      verify f =
        .verdict (decide ((((f.map BitVec.toNat).sum : Int) - (c.toNat : Int)) % 256 = (c.toNat : Int)))

/-- R92: the four forms of the validity condition say the same. -/
def Obligations.ChecksumFormsAgree : Prop :=
  ∀ (body : Bytes) (c : Byte), 2 ≤ body.length →
    (verify (body ++ [c]) = .verdict true ↔ sum8 body = c) ∧
    (verify (body ++ [c]) = .verdict true ↔ sum8 (body ++ [c]) - c = c) ∧
    (verify (body ++ [c]) = .verdict true ↔
      ((body ++ [c]).map BitVec.toNat).sum % 256 = (2 * c.toNat) % 256)

/-- R93 and R220: `APPEND` adds exactly one byte, the checksum; `ENCODEWRITE` does so when `cs_en` is set, and else
leaves the body; beyond `MAXLEN` both are refused (D19). The result goes to `ur` (log entry 5). -/
def Obligations.AppendAndEncodewriteAddChecksum : Prop :=
  ∀ (b : Bytes) (s : State),
    (admits s.params (b.length + 1) = true →
      exec (.append b) s = .next { s with ur := s.ur ++ [.bytes (b ++ [sum8 b])] } ∧
      exec (.encodewrite b true) s = .next { s with ur := s.ur ++ [.bytes (b ++ [sum8 b])] }) ∧
    (admits s.params (b.length + 1) = false →
      exec (.append b) s = .refused .overLength ∧ exec (.encodewrite b true) s = .refused .overLength) ∧
    (admits s.params b.length = true →
      exec (.encodewrite b false) s = .next { s with ur := s.ur ++ [.bytes b] }) ∧
    (admits s.params b.length = false → exec (.encodewrite b false) s = .refused .overLength)

/-- R94: the byte-serial form with any `CNTMAX >= 18` gives `VERIFY` on every frame, and the streamed transmit path
gives `APPEND` on every body. -/
def Obligations.StreamedChecksumEqualsCodec : Prop :=
  ∀ (cntMax : Nat) (f : Bytes), 18 ≤ cntMax →
    streamVerdict (streamFrame cntMax f) = verify f ∧ streamAppend f = append f

/-- R95: changing exactly one byte of a valid frame always makes it invalid. -/
def Obligations.SingleByteChangeIsDetected : Prop :=
  ∀ (f : Bytes) (n : Nat) (old new : Byte),
    verify f = .verdict true → f[n]? = some old → new ≠ old → verify (f.set n new) = .verdict false

/-- R95: the round trip of `APPEND` and `VERIFY`, its failure below two bytes, and reordering the body. -/
def Obligations.AppendedBodyVerifies : Prop :=
  (∀ b : Bytes, 2 ≤ b.length → verify (append b) = .verdict true) ∧
  (∀ b : Bytes, b.length < 2 → verify (append b) = .lengthError) ∧
  (∀ f : Bytes, verify f = .verdict true → append f.dropLast = f) ∧
  ∀ (b b' : Bytes) (c : Byte), b.Perm b' → verify (b' ++ [c]) = verify (b ++ [c])

/-! ### Frame Classifier (41_classifier.md, 30_encoding.md) -/

/-- R110 and R111: `CLASSIFY` gives the first two bytes and the total length, depends on nothing else, and is refused
on fewer than two bytes. The result goes to `ur` (log entry 5). -/
def Obligations.ClassifyReadsTwoBytesAndLength : Prop :=
  (∀ (c sc : Byte) (rest : Bytes) (s : State),
    exec (.classify (c :: sc :: rest)) s =
      .next { s with ur := s.ur ++ [.key ⟨c, sc, rest.length + 2⟩] }) ∧
  (∀ (f : Bytes) (s : State), f.length < 2 → exec (.classify f) s = .refused .badWindow) ∧
  ∀ f g : Bytes, f.length = g.length → f.take 2 = g.take 2 → classify f = classify g

/-- R78: `LOOKUP` selects the first row of the opcode table whose masked key word matches, whose channel qualifier
admits the channel and whose table is active, and `none` when there is none. The result goes to `ur` (log entry 5). -/
def Obligations.LookupSelectsOpcodeTableRow : Prop :=
  ∀ (k : Key) (ch : Channel) (v : Variant) (s : State),
    exec (.lookup k ch v) s =
      .next { s with ur := s.ur ++ [.kind ((frameRows.find? fun r => rowSelects r k ch v).map Row.kind)] }

/-- R62: the key word holds category, subcommand and the length saturated at 255, and no frame longer than 17 bytes
matches anything. -/
def Obligations.KeyWordSaturatesLength : Prop :=
  ∀ k : Key,
    (keyWord k).extractLsb' 16 8 = k.category ∧ (keyWord k).extractLsb' 8 8 = k.subcommand ∧
    ((keyWord k).extractLsb' 0 8).toNat = min k.length 255 ∧
    (17 < k.length → ∀ (ch : Channel) (v : Variant), lookup k ch v = none)

/-! ### Value Decoders (42_value_decoders.md) -/

/-- R131: `UINTLE` of `n` bytes is `Σ b_k << (8*k)`, below `256^n`, for any number of bytes. The result goes to `ur`
(log entry 5). -/
def Obligations.UintleIsLittleEndianSum : Prop :=
  ∀ (w : Bytes) (s : State),
    exec (.uintle w) s = .next { s with ur := s.ur ++
      [.value (.uint (w.zipIdx.map fun p => p.1.toNat <<< (8 * p.2)).sum)] } ∧
    (w.zipIdx.map fun p => p.1.toNat <<< (8 * p.2)).sum < 256 ^ w.length

/-- R132: `INTLE16` subtracts 0x10000 above 0x7FFF; that is the sign extension of the second byte over the first. The
result goes to `ur` (log entry 5). -/
def Obligations.Intle16IsTwosComplement : Prop :=
  ∀ (b0 b1 : Byte) (s : State), ∃ z : Int,
    exec (.intle16 [b0, b1]) s = .next { s with ur := s.ur ++ [.value (.sint z)] } ∧
    z = (if b0.toNat + 256 * b1.toNat > 0x7FFF then ((b0.toNat + 256 * b1.toNat : Nat) : Int) - 0x10000
      else ((b0.toNat + 256 * b1.toNat : Nat) : Int)) ∧
    z = ((b1 ++ b0).signExtend 32).toInt ∧ -32768 ≤ z ∧ z ≤ 32767

/-- R133, R134, R135: the fixed-point decoders give the exact numerator and their denominator; the integer and
fraction parts of an acceleration make up its numerator. The result goes to `ur` (log entry 5). -/
def Obligations.FixedPointDecodersGiveNumerators : Prop :=
  ∀ (b0 b1 : Byte) (s : State),
    exec (.scaledaccel [b0, b1]) s =
      .next { s with ur := s.ur ++ [.value (.scaled ⟨(b1 ++ b0).toInt, 1024⟩)] } ∧
    exec (.scaledtemp [b0, b1]) s =
      .next { s with ur := s.ur ++ [.value (.scaled ⟨(b1 ++ b0).toInt, 10⟩)] } ∧
    exec (.ratio255 [b0]) s = .next { s with ur := s.ur ++ [.value (.scaled ⟨(b0.toNat : Int), 255⟩)] } ∧
    (∀ num : Int, num = 1024 * accelInt num + accelFrac num ∧ 0 ≤ accelFrac num ∧ accelFrac num < 1024)

/-- R130, R138, R139: a raw byte passes unchanged, and the two booleans test it for zero in opposite senses. The
result goes to `ur` (log entry 5). -/
def Obligations.ByteDecodersPassOrTest : Prop :=
  ∀ (b : Byte) (s : State),
    exec (.u8 [b]) s = .next { s with ur := s.ur ++ [.value (.byte b)] } ∧
    exec (.boolz [b]) s = .next { s with ur := s.ur ++ [.value (.bool (decide (b.toNat = 0)))] } ∧
    exec (.boolnz [b]) s = .next { s with ur := s.ur ++ [.value (.bool (decide (b.toNat ≠ 0)))] }

/-- R136: a version is three bytes kept apart in frame order; each part of its text form is a decimal numeral of that
byte without leading zeros. The result goes to `ur` (log entry 5). -/
def Obligations.VersionKeepsThreeBytes : Prop :=
  (∀ (b0 b1 b2 : Byte) (s : State),
    exec (.version [b0, b1, b2]) s = .next { s with ur := s.ur ++ [.value (.version ⟨b0, b1, b2⟩)] } ∧
    versionText ⟨b0, b1, b2⟩ = decText b0 ++ ['.'] ++ decText b1 ++ ['.'] ++ decText b2) ∧
  ∀ b : Byte,
    (decText b).foldl (fun acc d => 10 * acc + (d.toNat - '0'.toNat)) 0 = b.toNat ∧
    (decText b).all Char.isDigit = true ∧ (decText b).head? ≠ none ∧
    (b ≠ 0 → (decText b).head? ≠ some '0') ∧ (b = 0 → decText b = ['0'])

/-- R137: `X10` is ten times the operand, `(u << 3) + (u << 1)`, and is never reduced. The result goes to `ur` (log
entry 5). -/
def Obligations.X10IsNeverReduced : Prop :=
  (∀ (b : Byte) (s : State),
    exec (.x10 (.u8 b)) s = .next { s with ur := s.ur ++ [.value (.uint (10 * b.toNat))] } ∧
    10 * b.toNat = (b.toNat <<< 3) + (b.toNat <<< 1) ∧ 10 * b.toNat ≤ 2550) ∧
  ∀ (u : BitVec 16) (s : State),
    exec (.x10 (.u16 u)) s = .next { s with ur := s.ur ++ [.value (.uint (10 * u.toNat))] } ∧
    10 * u.toNat = (u.toNat <<< 3) + (u.toNat <<< 1) ∧ 10 * u.toNat ≤ 655350

/-- R140, R269, D20: a value decoder on a window of another size is refused, and no record is emitted. -/
def Obligations.WrongWindowsAreRefused : Prop :=
  ∀ (w : Bytes) (s : State),
    (w.length ≠ 1 →
      exec (.u8 w) s = .refused .badWindow ∧ exec (.ratio255 w) s = .refused .badWindow ∧
      exec (.boolz w) s = .refused .badWindow ∧ exec (.boolnz w) s = .refused .badWindow) ∧
    (w.length ≠ 2 →
      exec (.intle16 w) s = .refused .badWindow ∧ exec (.scaledaccel w) s = .refused .badWindow ∧
      exec (.scaledtemp w) s = .refused .badWindow) ∧
    (w.length ≠ 3 → exec (.version w) s = .refused .badWindow)

/-! ### Base frames and ports (43_base_frames.md, 60_exceptions.md) -/

/-- R161: the identification frame, on either channel, emits the four events, and only when `BTYPE` is null also sets
it and emits the detection signal. The type byte at index 2 is decision D6 (log entry 10); a later frame leaves
`BTYPE` by D21 (log entry 16). -/
def Obligations.IdFrameIdentifiesOnce : Prop :=
  ∀ (s : State) (t s0 s1 s2 s3 v0 v1 v2 p0 p1 p2 p3 b : Byte),
    let four : List Event :=
      [.blockType t,
       .serialNumber (s0.toNat + 256 * s1.toNat + 65536 * s2.toNat + 16777216 * s3.toNat),
       .version ⟨v0, v1, v2⟩, .batteryLevel (10 * b.toNat)]
    let after : State :=
      if s.btype = none then { s with btype := some t, ev := s.ev ++ four ++ [.blockTypeDetected t] }
      else { s with ev := s.ev ++ four }
    exec (.id t ⟨s0, s1, s2, s3⟩ ⟨v0, v1, v2⟩ [p0, p1, p2, p3] b) s = .next after ∧
    ∀ ch : Channel, admits s.params 16 = true →
      exec (received ch [0x00, 0x02, t, s0, s1, s2, s3, v0, v1, v2, p0, p1, p2, p3, b]) s = .next after

/-- R162: the battery frame emits ten times its byte on `NOTIFY`, in either session state; on `INDICATE` it is ignored
(channel qualifier: D9, log entry 13). -/
def Obligations.BattFrameNeedsNotify : Prop :=
  ∀ (s : State) (b : Byte),
    exec (.batt b) s = .next { s with ev := s.ev ++ [.batteryLevel (10 * b.toNat)] } ∧
    (admits s.params 4 = true →
      exec (received .notify [0x00, 0x00, b]) s = .next { s with ev := s.ev ++ [.batteryLevel (10 * b.toNat)] } ∧
      exec (received .indicate [0x00, 0x00, b]) s = .next s)

/-- R163: the status-button frame passes the raw status byte, on either channel (D9, log entry 13). -/
def Obligations.SbtnFrameEmitsStatus : Prop :=
  ∀ (s : State) (st : Byte),
    exec (.sbtn st) s = .next { s with ev := s.ev ++ [.statusButton st] } ∧
    ∀ ch : Channel, admits s.params 4 = true →
      exec (received ch [0x00, 0x01, st]) s = .next { s with ev := s.ev ++ [.statusButton st] }

/-- R231: a frame below three bytes raises `LengthError`, whatever its bytes, and nothing else happens. The code 1 and
the channel and length in the record are decision D12 (log entry 21). -/
def Obligations.ShortFrameRaisesLengthError : Prop :=
  errCode .lengthError = 1 ∧
  ∀ (s : State) (ch : Channel) (f : Bytes), f.length < 3 → admits s.params f.length = true →
    exec (portInstr (.rx ch f)) s = .next { s with er := s.er ++ [⟨.lengthError, ch, f.length⟩] }

/-- R232: a frame with a wrong checksum raises `ChecksumError`, code 2, and nothing else happens, even for the key of
`ID`. The content of the record is decision D12 (log entry 21). -/
def Obligations.BadChecksumRaisesChecksumError : Prop :=
  errCode .checksumError = 2 ∧
  ∀ (s : State) (ch : Channel) (body : Bytes) (c : Byte),
    2 ≤ body.length → (body.map BitVec.toNat).sum % 256 ≠ c.toNat → admits s.params (body.length + 1) = true →
    exec (portInstr (.rx ch (body ++ [c]))) s =
      .next { s with er := s.er ++ [⟨.checksumError, ch, body.length + 1⟩] }

/-- R160, R236, R115: the checks of `RXFRAME` (`RXFRAME.I` for `indicate`, `RXFRAME.N` for `notify`) in their fixed
order (length, checksum, lookup), and then the meaning of the frame kind that `LOOKUP` selected, on the fields of that
very frame; with the outcome's name in each case. The channel and length in the error records are D12 (log entry 21);
that verification gates variant frames is D24 (log entry 24). -/
def Obligations.RxframeChecksInFixedOrder : Prop :=
  ∀ (s : State) (ch : Channel) (f : Bytes), admits s.params f.length = true →
    (f.length < 3 →
      exec (portInstr (.rx ch f)) s = .next { s with er := s.er ++ [⟨.lengthError, ch, f.length⟩] } ∧
      opOutcome (.rx ch f) s = some .lengthError) ∧
    (∀ (b : Bytes) (c : Byte), f = b ++ [c] → 2 ≤ b.length → sum8 b ≠ c →
      exec (portInstr (.rx ch f)) s = .next { s with er := s.er ++ [⟨.checksumError, ch, f.length⟩] } ∧
      opOutcome (.rx ch f) s = some .checksumError) ∧
    (∀ (c sc : Byte) (p : Bytes), f = (c :: sc :: p) ++ [sum8 (c :: sc :: p)] →
      (lookup ⟨c, sc, f.length⟩ ch s.active = none →
        exec (portInstr (.rx ch f)) s = .next s ∧ opOutcome (.rx ch f) s = some .ignored) ∧
      ∀ k : Kind, lookup ⟨c, sc, f.length⟩ ch s.active = some k →
        ∃ (i : Instr) (s' : State), i.wf = true ∧ kindOf i = some k ∧ encode i = some f ∧
          exec i s = .next s' ∧ exec (portInstr (.rx ch f)) s = .next s' ∧
          opOutcome (.rx ch f) s = some (.decoded k))

/-- R268, D19: a frame, or a body with the checksum it asks for, that is longer than `MAXLEN` is refused. -/
def Obligations.OverLongSequencesAreRefused : Prop :=
  ∀ (s : State) (m : Nat), s.params.maxLen = some m →
    (∀ (ch : Channel) (f : Bytes), m < f.length → exec (portInstr (.rx ch f)) s = .refused .overLength) ∧
    (∀ (b : Bytes) (ack : Bool), m < b.length → exec (.txbody b false ack) s = .refused .overLength) ∧
    ∀ (b : Bytes) (ack : Bool), m ≤ b.length → exec (.txbody b true ack) s = .refused .overLength

/-- R164: the complete transition table of the session state machine, with what each row emits. The type byte at index
2 is D6 (log entry 10), the `RESET` row D16 (log entry 17), the row of an identification frame while Identified D21
(log entry 16). -/
def Obligations.SessionStateMachine : Prop :=
  ∀ (s s' : State) (tr : Trans), exec (portInstr tr) s = .next s' →
    match tr with
    | .disc => s' = { s with btype := none }
    | .rst => s' = { s with btype := none }
    | .tx _ _ _ => ∃ w, s' = { s with wr := s.wr ++ [w] }
    | .rx _ f =>
      (verify f ≠ .verdict true → ∃ r, s' = { s with er := s.er ++ [r] }) ∧
      (verify f = .verdict true → classify f = some idKey →
        ∃ (t : Byte) (four : List Event), f[2]? = some t ∧ four.head? = some (.blockType t) ∧
          four.map Event.name = ["block_type", "serial_number", "version", "battery_level"] ∧
          (s.btype = none →
            s' = { s with btype := some t, ev := s.ev ++ four ++ [.blockTypeDetected t] }) ∧
          (s.btype ≠ none → s' = { s with ev := s.ev ++ four })) ∧
      (verify f = .verdict true → classify f ≠ some idKey →
        ∃ es : List Event, s' = { s with ev := s.ev ++ es } ∧ es.length ≤ 1 ∧
          ∀ e ∈ es, e.isDetection = false)

/-- R22, R23, over all instructions: `BTYPE` is set to null only by `DISCONNECT` and `RESET`, whose outcome is
`Cleared` (R13; `RESET`: D16, log entry 17), and set to a byte only by an identification frame while it was null (a
later one leaves it: D21, log entry 16), from index 2 of that frame (D6, log entry 10); nothing else changes it. -/
def Obligations.OnlyIdAndSessionEndWriteBtype : Prop :=
  (∀ s : State, exec .disconnect s = .next { s with btype := none } ∧
    exec .reset s = .next { s with btype := none } ∧
    opOutcome .disc s = some .cleared ∧ opOutcome .rst s = some .cleared) ∧
  ∀ (i : Instr) (s s' : State), exec i s = .next s' →
    s'.btype = s.btype ∨
    (s'.btype = none ∧ (i = .disconnect ∨ i = .reset)) ∨
    (s.btype = none ∧ ∃ t : Byte, s'.btype = some t ∧
      ((∃ serial ver pad b, i = .id t serial ver pad b) ∨
        ∃ f : Bytes, (i = .rxframeI f ∨ i = .rxframeN f) ∧ verify f = .verdict true ∧
          classify f = some idKey ∧ f[2]? = some t))

/-- R31, R260: after reset the session is Unidentified and nothing has been emitted; the invariant holds there. The
parameters of the reset state are the model's choice (log entry 2), and only their legality is used. -/
def Obligations.ResetStateIsUnidentified : Prop :=
  State.reset.btype = none ∧ State.reset.active = .none ∧ State.reset.ev = [] ∧ State.reset.er = [] ∧
  State.reset.wr = [] ∧ Inv State.reset

/-! ### Variant frames (44_variant_frames.md) -/

/-- R191: `BUTTON`, on either channel (R190; D9, log entry 13). -/
def Obligations.ButtonFrameEmitsStatus : Prop :=
  ∀ (s : State) (st : Byte), EmitsOne .button (.button st) [0x01, 0x00, st] s (.button st)

/-- R192, R193, R194: `TAP`, `SHAKE` and `FLIP` decode three signed 16-bit little-endian numbers over 1024 and ignore
indices 8..15, on either channel (R190; D9, log entry 13). -/
def Obligations.MoveFramesEmitAcceleration : Prop :=
  ∀ (s : State) (x0 x1 y0 y1 z0 z1 : Byte) (pad : Bytes), pad.length = 8 →
    let x : Scaled := ⟨(x1 ++ x0).toInt, 1024⟩
    let y : Scaled := ⟨(y1 ++ y0).toInt, 1024⟩
    let z : Scaled := ⟨(z1 ++ z0).toInt, 1024⟩
    EmitsOne .move (.tap ⟨x0, x1⟩ ⟨y0, y1⟩ ⟨z0, z1⟩ pad)
      ([0x01, 0x00, x0, x1, y0, y1, z0, z1] ++ pad) s (.tap x y z) ∧
    EmitsOne .move (.shake ⟨x0, x1⟩ ⟨y0, y1⟩ ⟨z0, z1⟩ pad)
      ([0x01, 0x01, x0, x1, y0, y1, z0, z1] ++ pad) s (.shake x y z) ∧
    EmitsOne .move (.flip ⟨x0, x1⟩ ⟨y0, y1⟩ ⟨z0, z1⟩ pad)
      ([0x01, 0x02, x0, x1, y0, y1, z0, z1] ++ pad) s (.flip x y z)

/-- R195: `ORIENT` for both values of `ORIENT_XYZ_BASE` (D8, log entry 12), on either channel (R190; D9, log entry
13); with 2 the orientation byte is the low byte of x. -/
def Obligations.OrientFrameFollowsXyzBase : Prop :=
  ∀ (s : State) (o b3 b4 b5 b6 b7 b8 : Byte) (pad : Bytes), pad.length = 7 →
    (s.params.orientBase = .two →
      EmitsOne .move (.orient o b3 b4 b5 b6 b7 b8 pad) ([0x01, 0x03, o, b3, b4, b5, b6, b7, b8] ++ pad) s
        (.orientation o ⟨(b3 ++ o).toInt, 1024⟩ ⟨(b5 ++ b4).toInt, 1024⟩ ⟨(b7 ++ b6).toInt, 1024⟩) ∧
      (b3 ++ o).toInt % 256 = (o.toNat : Int)) ∧
    (s.params.orientBase = .three →
      EmitsOne .move (.orient o b3 b4 b5 b6 b7 b8 pad) ([0x01, 0x03, o, b3, b4, b5, b6, b7, b8] ++ pad) s
        (.orientation o ⟨(b4 ++ b3).toInt, 1024⟩ ⟨(b6 ++ b5).toInt, 1024⟩ ⟨(b8 ++ b7).toInt, 1024⟩))

/-- R196: `MOTION` passes three separate bytes in frame order, on either channel (R190; D9, log entry 13). -/
def Obligations.MotionFrameEmitsThreeBytes : Prop :=
  ∀ (s : State) (a b c : Byte), EmitsOne .motion (.motion a b c) [0x01, 0x00, a, b, c] s (.motion a b c)

/-- R197: `BRIGHT` gives an unsigned brightness and a proximity of ten times an unsigned 16-bit number, not reduced,
on either channel (R190; D9, log entry 13). -/
def Obligations.BrightFrameEmitsUnsigned : Prop :=
  ∀ (s : State) (r m b0 b1 p0 p1 : Byte) (pad : Bytes), pad.length = 4 →
    EmitsOne .brightness (.bright r m ⟨b0, b1⟩ ⟨p0, p1⟩ pad) ([0x01, 0x00, r, m, b0, b1, p0, p1] ++ pad) s
      (.brightness r m (b0.toNat + 256 * b1.toNat) (10 * (p0.toNat + 256 * p1.toNat)))

/-- R198: `TEMPHUMID` gives a signed temperature over 10 and a signed, unscaled humidity, on either channel (R190; D9,
log entry 13). -/
def Obligations.TemphumidFrameEmitsSigned : Prop :=
  ∀ (s : State) (r m t0 t1 h0 h1 : Byte),
    EmitsOne .tempHumid (.temphumid r m ⟨t0, t1⟩ ⟨h0, h1⟩) [0x01, 0x00, r, m, t0, t1, h0, h1] s
      (.temphumid r m ⟨(t1 ++ t0).toInt, 10⟩ (h1 ++ h0).toInt)

/-- R199: `DIGCHG` passes pin and edge, on either channel (R190; D9, log entry 13). -/
def Obligations.DigchgFrameEmitsPinAndEdge : Prop :=
  ∀ (s : State) (p e : Byte),
    EmitsOne .gpio (.digchg p e) [0x01, 0x00, p, e] s (.digitalChanged p e)

/-- R200: `ANACHG` takes the level from index 5 and ignores indices 3 and 4, on either channel (R190; D9, log entry
13). -/
def Obligations.AnachgFrameReadsIndexFive : Prop :=
  ∀ (s : State) (p i3 i4 l : Byte),
    EmitsOne .gpio (.anachg p [i3, i4] l) [0x01, 0x01, p, i3, i4, l] s
      (.analogChanged p ⟨(l.toNat : Int), 255⟩)

/-- R201: `DIGIN` gives a level that is true when the byte is zero, on either channel (R190; D9, log entry 13;
positions of request_id and pin: D7, log entry 11). -/
def Obligations.DiginFrameTestsForZero : Prop :=
  ∀ (s : State) (r p l : Byte),
    EmitsOne .gpio (.digin r p l) [0x01, 0x02, r, p, l] s (.digitalInput r p (decide (l.toNat = 0)))

/-- R202: `ANAIN` takes the level from index 4 and the mode from index 5, on either channel (R190; D9, log entry 13;
positions: D7, log entry 11). -/
def Obligations.AnainFrameEmitsLevelAndMode : Prop :=
  ∀ (s : State) (r p l m : Byte),
    EmitsOne .gpio (.anain r p l m) [0x01, 0x03, r, p, l, m] s
      (.analogInput r p ⟨(l.toNat : Int), 255⟩ m)

/-- R203, R204: `PWROUT` and `DIGOUT` give a level that is true when the byte is not zero, on either channel (R190;
D9, log entry 13; positions: D7, log entry 11). -/
def Obligations.OutputFramesTestForNonzero : Prop :=
  ∀ (s : State) (r p l : Byte),
    EmitsOne .gpio (.pwrout r p l) [0x01, 0x04, r, p, l] s (.powerOutput r p (decide (l.toNat ≠ 0))) ∧
    EmitsOne .gpio (.digout r p l) [0x01, 0x05, r, p, l] s (.digitalOutput r p (decide (l.toNat ≠ 0)))

/-- R205: `PWMOUT` gives a level over 255, on either channel (R190; D9, log entry 13; positions: D7, log entry 11). -/
def Obligations.PwmoutFrameEmitsRatio : Prop :=
  ∀ (s : State) (r p l : Byte),
    EmitsOne .gpio (.pwmout r p l) [0x01, 0x06, r, p, l] s (.pwmOutput r p ⟨(l.toNat : Int), 255⟩)

/-- R206: with `LED` active every valid category-0x01 frame is ignored, and base keys select as with any variant. -/
def Obligations.LedHasNoInboundTable : Prop :=
  (∀ (s : State) (ch : Channel) (sc : Byte) (p : Bytes),
    s.active = .led → admits s.params (p.length + 3) = true → exec (received ch (0x01 :: sc :: p)) s = .next s) ∧
  ∀ (sc : Byte) (n : Nat) (ch : Channel) (v : Variant),
    lookup ⟨0x00, sc, n⟩ ch .led = lookup ⟨0x00, sc, n⟩ ch v

/-- R114: the active variant is `NONE` until the first identification and then what `BTYPE_MAP` says of the type held;
while it is `NONE` every valid category-0x01 frame is ignored. -/
def Obligations.VariantIsActiveOnlyAfterIdentification : Prop :=
  (∀ s : State, s.btype = none → s.active = .none) ∧
  (∀ (s : State) (t : Byte), s.btype = some t → s.active = s.params.btypeMap[t.toNat]'t.isLt) ∧
  ∀ (s : State) (ch : Channel) (sc : Byte) (p : Bytes),
    s.active = .none → admits s.params (p.length + 3) = true → exec (received ch (0x01 :: sc :: p)) s = .next s

/-- R190: every variant frame kind emits exactly one event, which depends on the frame and `ORIENT_XYZ_BASE` only, and
neither reads nor writes any other state. That the instruction on its own does not test the active variant, so that
this holds in every state, is log entry 14. -/
def Obligations.VariantKindsEmitExactlyOneEvent : Prop :=
  ∀ (i : Instr) (k : Kind) (v : Variant) (base : OrientBase), kindOf i = some k → variantOf k = some v →
    ∃ e : Event, e.fromVariant = true ∧
      ∀ s : State, s.params.orientBase = base → exec i s = .next { s with ev := s.ev ++ [e] }

/-- R167: the payloads of the events of a decoded frame depend on the frame and `ORIENT_XYZ_BASE` only, not on
`BTYPE`, the channel or what came before; only the detection signal, at most one, depends on the session. -/
def Obligations.EventPayloadsDependOnFrameOnly : Prop :=
  ∀ (f : Bytes) (ch₁ ch₂ : Channel) (s₁ s₂ s₁' s₂' : State) (k₁ k₂ : Kind),
    s₁.params.orientBase = s₂.params.orientBase →
    opOutcome (.rx ch₁ f) s₁ = some (.decoded k₁) → opOutcome (.rx ch₂ f) s₂ = some (.decoded k₂) →
    exec (portInstr (.rx ch₁ f)) s₁ = .next s₁' → exec (portInstr (.rx ch₂ f)) s₂ = .next s₂' →
    ∃ es d₁ d₂ : List Event, s₁'.ev = s₁.ev ++ es ++ d₁ ∧ s₂'.ev = s₂.ev ++ es ++ d₂ ∧
      (∀ e ∈ es, e.isDetection = false) ∧ (∀ e ∈ d₁ ++ d₂, e.isDetection = true) ∧
      d₁.length ≤ 1 ∧ d₂.length ≤ 1 ∧
      (d₁ ≠ [] → k₁ = .id ∧ s₁.btype = none) ∧ (d₂ ≠ [] → k₂ = .id ∧ s₂.btype = none)

/-- R67, R73: what `RXFRAME` emits for a selected frame is, event by event and field by field, what the table of field
layouts says of that frame, with the detection signal last where the session was null. In that table the block type's
index is D6 (log entry 10), the positions of request_id and pin D7 (log entry 11), and the names `value` and `arg0` to
`arg2` D28 (log entry 21). -/
def Obligations.EventsFollowFieldTable : Prop :=
  ∀ (s : State) (ch : Channel) (f : Bytes) (k : Kind), opOutcome (.rx ch f) s = some (.decoded k) →
    ∃ (s' : State) (es : List Event), exec (portInstr (.rx ch f)) s = .next s' ∧ s'.ev = s.ev ++ es ∧
      es.map eventView =
        (layout s.params.orientBase k ++
          (if k = .id ∧ s.btype = none then [detectionLayout] else [])).map (tableEvent f)

/-- R68: payload bytes that no row of the field table names do not matter: two valid frames of one kind that agree on
the named indices have the same effect. -/
def Obligations.UnnamedPayloadBytesAreIgnored : Prop :=
  ∀ (s : State) (ch : Channel) (f g : Bytes) (k : Kind),
    opOutcome (.rx ch f) s = some (.decoded k) → opOutcome (.rx ch g) s = some (.decoded k) →
    (∀ n : Nat, readIndex s.params.orientBase k n = true → f[n]? = g[n]?) →
    exec (portInstr (.rx ch f)) s = exec (portInstr (.rx ch g)) s

/-! ### Command Encoder (45_command_encoder.md, 20_memory.md) -/

/-- R220, R221, R41: with `cs_en`, which is what a caller gets who does not say, the output is the body and its
checksum, without it the body, handed whole to `WR` with the delivery mode (the `ack` bit: D27, log entry 21); the
outcome is `Written` (R13). -/
def Obligations.TxbodyWritesOneRecord : Prop :=
  ∀ (s : State) (b : Bytes) (ack : Bool),
    (admits s.params (b.length + 1) = true →
      exec (.txbody b true ack) s = .next { s with wr := s.wr ++ [⟨b ++ [sum8 b], ack⟩] } ∧
      exec (portInstr (txDefault b ack)) s = .next { s with wr := s.wr ++ [⟨b ++ [sum8 b], ack⟩] } ∧
      opOutcome (.tx b true ack) s = some .written ∧ opOutcome (txDefault b ack) s = some .written) ∧
    (admits s.params b.length = true →
      exec (.txbody b false ack) s = .next { s with wr := s.wr ++ [⟨b, ack⟩] } ∧
      opOutcome (.tx b false ack) s = some .written) ∧
    encodeWriteDefault b = b ++ [sum8 b]

/-- R52, R222: a `TXBODY` may be moved earlier or later across any other port operation without changing the final
state, any stream included. -/
def Obligations.TxbodyCommutesWithOtherPorts : Prop :=
  ∀ (s s1 s2 : State) (tr : Trans) (b : Bytes) (csEn ack : Bool),
    (∀ (b' : Bytes) (csEn' ack' : Bool), tr ≠ .tx b' csEn' ack') →
    (exec (portInstr tr) s = .next s1 → exec (.txbody b csEn ack) s1 = .next s2 →
      ∃ s3 : State, exec (.txbody b csEn ack) s = .next s3 ∧ exec (portInstr tr) s3 = .next s2) ∧
    (exec (.txbody b csEn ack) s = .next s1 → exec (portInstr tr) s1 = .next s2 →
      ∃ s3 : State, exec (portInstr tr) s = .next s3 ∧ exec (.txbody b csEn ack) s3 = .next s2)

/-- R224: a written frame presented back to `RX` decodes or is ignored as its key says, and is too short when the body
had fewer than two bytes. -/
def Obligations.WrittenFrameLoopsBack : Prop :=
  ∀ (s : State) (b : Bytes) (ack : Bool) (ch : Channel), admits s.params (b.length + 1) = true →
    ∃ (s' : State) (out : Bytes),
      exec (.txbody b true ack) s = .next s' ∧ s'.wr = s.wr ++ [⟨out, ack⟩] ∧
      (b.length < 2 → opOutcome (.rx ch out) s' = some .lengthError) ∧
      ∀ (c sc : Byte) (p : Bytes), b = c :: sc :: p →
        opOutcome (.rx ch out) s' =
          some (match lookup ⟨c, sc, b.length + 1⟩ ch s.active with
            | some k => .decoded k
            | none => .ignored)

/-! ### The machine -/

/-- R27, R30, R248: a step runs the next transaction of the trace with the index advanced by 1, and for a frame that
decodes it runs the decoded instruction; without a transaction the engine is idle (log entry 3). -/
def Obligations.StepRunsPresentedOperation : Prop :=
  ∀ s : State,
    (s.input = [] → step s = .next s) ∧
    (∀ (tr : Trans) (rest : List Trans), s.input = tr :: rest →
      step s = exec (portInstr tr) { s with input := rest, opIndex := s.opIndex + 1 }) ∧
    ∀ (ch : Channel) (f : Bytes) (rest : List Trans) (i : Instr), s.input = .rx ch f :: rest →
      admits s.params f.length = true → decode ch s.active f = .ok i →
      step s = exec i { s with input := rest, opIndex := s.opIndex + 1 }

/-- R60, R67: for every well-formed frame kind with every operand at every value, decoding its encoding gives it back,
on a channel its row admits and with its table active. -/
def Obligations.DecodeOfEncodeIsIdentity : Prop :=
  ∀ (i : Instr) (k : Kind) (ch : Channel) (v : Variant), i.wf = true → kindOf i = some k →
    (k = .batt → ch = .notify) → (variantOf k = none ∨ variantOf k = some v) →
    ∃ f : Bytes, encode i = some f ∧ decode ch v f = .ok i

/-- R60, R67: whatever decodes is a well-formed frame kind whose encoding is that very frame, so no bit is dropped. -/
def Obligations.EncodeOfDecodeIsIdentity : Prop :=
  ∀ (f : Bytes) (ch : Channel) (v : Variant) (i : Instr), decode ch v f = .ok i →
    i.wf = true ∧ (kindOf i).isSome = true ∧ encode i = some f

/-- 95_test_vectors.md: frames written out in the spec decode to the instruction they stand for. -/
def Obligations.SpecFramesDecodeAsWritten : Prop :=
  decode .indicate .none
      [0x00, 0x02, 0x02, 0x2A, 0x00, 0x00, 0x00, 0x01, 0x02, 0x03, 0x00, 0x00, 0x00, 0x00, 0x32, 0x66] =
    .ok (.id 0x02 ⟨0x2A, 0x00, 0x00, 0x00⟩ ⟨0x01, 0x02, 0x03⟩ [0x00, 0x00, 0x00, 0x00] 0x32) ∧
  decode .notify .none [0x00, 0x00, 0x50, 0x50] = .ok (.batt 0x50) ∧
  decode .notify .none [0x00, 0x00, 0x50, 0x51] = .error .checksumError ∧
  decode .notify .none [0xFF, 0x00, 0x00, 0xFF] = .error .unrecognised ∧
  decode .notify .tempHumid [0x01, 0x00, 0x09, 0x01, 0xCE, 0xFF, 0xFF, 0xFF, 0xD6] =
    .ok (.temphumid 0x09 0x01 ⟨0xCE, 0xFF⟩ ⟨0xFF, 0xFF⟩) ∧
  decode .notify .gpio [0x01, 0x03, 0x06, 0x02, 0xFF, 0x01, 0x0C] = .ok (.anain 0x06 0x02 0xFF 0x01)

/-- The invariant: legal parameters, event values in their ranges, error records that the engine can raise, writes
within `MAXLEN`. Every step keeps it, from every state that has it. -/
def Obligations.StepKeepsInvariant : Prop :=
  ∀ s s' : State, Inv s → step s = .next s' → Inv s'

/-- R30, R32: a step never changes the parameters, only appends to the streams, and takes at most one transaction. -/
def Obligations.StepOnlyAppendsAndKeepsParams : Prop :=
  ∀ s s' : State, step s = .next s' →
    s'.params = s.params ∧ s.ev <+: s'.ev ∧ s.er <+: s'.er ∧ s.wr <+: s'.wr ∧ s'.ur = s.ur ∧
    s'.input = s.input.tail ∧ s'.opIndex = s.opIndex + min s.input.length 1

/-- R235, R274: nothing stops the engine but a transaction outside the length contract. -/
def Obligations.OnlyOverLengthStops : Prop :=
  ∀ s : State,
    (∃ s' : State, step s = .next s') ∨
    (step s = .refused .overLength ∧
      ∃ (tr : Trans) (rest : List Trans), s.input = tr :: rest ∧ inContract s.params tr = false)

/-- R243, R274: a run whose trace keeps the length contract never stops, whatever errors occur in it, and consumes the
trace in order. -/
def Obligations.RunInContractNeverStops : Prop :=
  ∀ (n : Nat) (s : State), TraceInContract s →
    ∃ s' : State, Host.Core.run core n s = .next s' ∧ s'.input = s.input.drop n ∧ s'.params = s.params

/-- R263: in a run from a null session without disconnect or reset, no variant event comes before the detection
signal, and the signal is emitted exactly once, when the session is identified, immediately after a battery level. -/
def Obligations.DetectionFiresOncePerConnection : Prop :=
  ∀ (n : Nat) (s s' : State), s.btype = none → (∀ tr ∈ s.input.take n, clearsSession tr = false) →
    Host.Core.run core n s = .next s' →
    (s'.btype = none ∧ ∃ es : List Event, s'.ev = s.ev ++ es ∧
      ∀ e ∈ es, e.isDetection = false ∧ e.fromVariant = false) ∨
    ∃ (t : Byte) (level : Nat) (pre post : List Event), s'.btype = some t ∧
      s'.ev = s.ev ++ pre ++ [.batteryLevel level, .blockTypeDetected t] ++ post ∧
      (∀ e ∈ pre, e.isDetection = false ∧ e.fromVariant = false) ∧ ∀ e ∈ post, e.isDetection = false

/-- R73 to R76: the lane that carries a value of each decoder type; the number, the name and the fields in lane order of
every event; the port forms of error and write records. The numbers and lanes are D13, the codes and the content of an
error record D12, the channel bit D14, the `ack` bit D27 and the names `value` and `arg0` to `arg2` D28 (log entry 21). -/
def Obligations.LanesCarryExtendedBytes : Prop :=
  (∀ b0 b1 b2 b3 : Byte,
    (decodeWindow .u8 [b0]).map laneOf = some (b0.zeroExtend 32) ∧
    (decodeWindow .rat255 [b0]).map laneOf = some (b0.zeroExtend 32) ∧
    (decodeWindow .u16le [b0, b1]).map laneOf = some ((b1 ++ b0).zeroExtend 32) ∧
    (decodeWindow .u32le [b0, b1, b2, b3]).map laneOf = some (b3 ++ b2 ++ b1 ++ b0) ∧
    (decodeWindow .s16le [b0, b1]).map laneOf = some ((b1 ++ b0).signExtend 32) ∧
    (decodeWindow .accel [b0, b1]).map laneOf = some ((b1 ++ b0).signExtend 32) ∧
    (decodeWindow .temp [b0, b1]).map laneOf = some ((b1 ++ b0).signExtend 32) ∧
    (decodeWindow .u8x10 [b0]).map (fun v => (laneOf v).toNat) = some (10 * b0.toNat) ∧
    (decodeWindow .u16x10 [b0, b1]).map (fun v => (laneOf v).toNat) = some (10 * (b0.toNat + 256 * b1.toNat)) ∧
    (decodeWindow .boolz [b0]).map laneOf = some (if b0 = 0 then 1 else 0) ∧
    (decodeWindow .boolnz [b0]).map laneOf = some (if b0 = 0 then 0 else 1) ∧
    (decodeWindow .ver3 [b0, b1, b2]).map laneOf = some ((0 : Byte) ++ b0 ++ b1 ++ b2)) ∧
  (∀ e : Event, e.fields.length ≤ 4 ∧ e.lanes = e.fields.map fun p => laneOf p.2) ∧
  (∀ b : Byte, eventHead (.blockType b) = (1, "block_type", ["value"]) ∧
    eventHead (.blockTypeDetected b) = (5, "block_type_detected", ["value"]) ∧
    eventHead (.statusButton b) = (6, "status_button", ["value"]) ∧
    eventHead (.button b) = (7, "button", ["status"])) ∧
  (∀ n : Nat, eventHead (.serialNumber n) = (2, "serial_number", ["value"]) ∧
    eventHead (.batteryLevel n) = (4, "battery_level", ["value"])) ∧
  (∀ v : Win3, eventHead (.version v) = (3, "version", ["value"])) ∧
  (∀ (o : Byte) (x y z : Scaled), eventHead (.tap x y z) = (8, "tap", ["x", "y", "z"]) ∧
    eventHead (.shake x y z) = (9, "shake", ["x", "y", "z"]) ∧
    eventHead (.flip x y z) = (10, "flip", ["x", "y", "z"]) ∧
    eventHead (.orientation o x y z) = (11, "orientation", ["orientation", "x", "y", "z"])) ∧
  (∀ a b c : Byte, eventHead (.motion a b c) = (12, "motion", ["arg0", "arg1", "arg2"])) ∧
  (∀ (r m : Byte) (b p : Nat) (t : Scaled) (h : Int),
    eventHead (.brightness r m b p) = (13, "brightness", ["request_id", "mode", "brightness", "proximity"]) ∧
    eventHead (.temphumid r m t h) = (14, "temphumid", ["request_id", "mode", "temperature", "humidity"])) ∧
  (∀ (r p m : Byte) (l : Scaled) (d : Bool),
    eventHead (.digitalChanged p m) = (15, "digital_changed", ["pin", "edge"]) ∧
    eventHead (.analogChanged p l) = (16, "analog_changed", ["pin", "level"]) ∧
    eventHead (.digitalInput r p d) = (17, "digital_input", ["request_id", "pin", "level"]) ∧
    eventHead (.analogInput r p l m) = (18, "analog_input", ["request_id", "pin", "level", "mode"]) ∧
    eventHead (.powerOutput r p d) = (19, "power_output", ["request_id", "pin", "level"]) ∧
    eventHead (.digitalOutput r p d) = (20, "digital_output", ["request_id", "pin", "level"]) ∧
    eventHead (.pwmOutput r p l) = (21, "pwm_output", ["request_id", "pin", "level"])) ∧
  (∀ e : Event, e.evid ≠ 0 ∧ e.evid.toNat ≤ 21) ∧
  (∀ (code : ErrCode) (ch : Channel) (n : Nat),
    (ErrRec.onPort ⟨.lengthError, ch, n⟩).1 = 1 ∧ (ErrRec.onPort ⟨.checksumError, ch, n⟩).1 = 2 ∧
    (ErrRec.onPort ⟨code, .indicate, n⟩).2.1 = 0 ∧ (ErrRec.onPort ⟨code, .notify, n⟩).2.1 = 1 ∧
    (ErrRec.onPort ⟨code, ch, n⟩).2.2.toNat = min n 255 ∧
    (ErrRec.onPort ⟨code, ch, n⟩).1 ≠ 0 ∧ (ErrRec.onPort ⟨code, ch, n⟩).1 ≠ 3) ∧
  ∀ bytes : Bytes, WrRec.onPort ⟨bytes, true⟩ = (bytes, 1) ∧ WrRec.onPort ⟨bytes, false⟩ = (bytes, 0)

/-- R243: bad frames, in any number and on any channels, add one error record each and leave the machine as it was, and
the next port operation answers as it would have without them: the same effect, beside the records the bad frames left,
or the same refusal. -/
def Obligations.BadFramesLeaveOnlyTheirRecords : Prop :=
  ∀ (s : State) (bad : List (Channel × Bytes)),
    (∀ p ∈ bad, admits s.params p.2.length = true ∧ verify p.2 ≠ .verdict true) →
    ∃ rs : List ErrRec, rs.length = bad.length ∧
      rs.map ErrRec.code = bad.map (fun p => if p.2.length < 3 then .lengthError else .checksumError) ∧
      presentAll (bad.map fun p => .rx p.1 p.2) s = .next { s with er := s.er ++ rs } ∧
      (∀ (tr : Trans) (t : State), exec (portInstr tr) s = .next t →
        ∃ own : List ErrRec, t.er = s.er ++ own ∧
          exec (portInstr tr) { s with er := s.er ++ rs } = .next { t with er := s.er ++ rs ++ own }) ∧
      ∀ (tr : Trans) (r : Refusal), exec (portInstr tr) s = .refused r →
        exec (portInstr tr) { s with er := s.er ++ rs } = .refused r

/-- R43: every multi-byte numeric field is little-endian, at any index: the value its decoder type gives is made from the
number whose least significant byte is at the field's first index; a one-byte read sees the byte at its index. Every
multi-byte field of the tables has one of these types, or is the version triple, which is no number (R44). -/
def Obligations.FieldReadsAreLittleEndian : Prop :=
  (∀ (f : Bytes) (i n : Nat), i + n ≤ f.length →
    ∃ w : Bytes, memRead f i n = some w ∧ uintLE w = numberAt f i n) ∧
  (∀ (f : Bytes) (i : Nat) (name : String),
    (i + 1 ≤ f.length → decodeField f ⟨name, i, 1, .u8⟩ = (f[i]?).map Value.byte) ∧
    (i + 2 ≤ f.length →
      decodeField f ⟨name, i, 2, .u16le⟩ = some (.uint (numberAt f i 2)) ∧
      decodeField f ⟨name, i, 2, .u16x10⟩ = some (.uint (10 * numberAt f i 2)) ∧
      decodeField f ⟨name, i, 2, .s16le⟩ = some (.sint (Int.bmod (numberAt f i 2) 65536)) ∧
      decodeField f ⟨name, i, 2, .accel⟩ = some (.scaled ⟨Int.bmod (numberAt f i 2) 65536, 1024⟩) ∧
      decodeField f ⟨name, i, 2, .temp⟩ = some (.scaled ⟨Int.bmod (numberAt f i 2) 65536, 10⟩)) ∧
    (i + 4 ≤ f.length → decodeField f ⟨name, i, 4, .u32le⟩ = some (.uint (numberAt f i 4)))) ∧
  ∀ (base : OrientBase) (k : Kind), ∀ e ∈ layout base k, ∀ fd ∈ e.2, 2 ≤ fd.len →
    (fd.len, fd.dtype) ∈
      [(2, DType.u16le), (2, .u16x10), (2, .s16le), (2, .accel), (2, .temp), (4, .u32le), (3, .ver3)]
end

