-- ==== Sys2Proof/Laws/Codec.lean ====
section
/-! SUPPORT. What the pure functions do, one lemma each: sums and checksums, `VERIFY` on a frame given as body and
checksum, `MemRead`, windows, keys. -/

namespace Sys2Proof.Machine

/-! ### Checksums -/

@[simp] theorem byteSum_nil : byteSum [] = 0 := rfl

@[simp] theorem byteSum_cons (b : Byte) (bs : Bytes) : byteSum (b :: bs) = b.toNat + byteSum bs := by
  simp [byteSum]

@[simp] theorem byteSum_append (as bs : Bytes) : byteSum (as ++ bs) = byteSum as + byteSum bs := by
  simp [byteSum]

theorem byteSum_perm {as bs : Bytes} (h : as.Perm bs) : byteSum as = byteSum bs :=
  (h.map BitVec.toNat).sum_eq

@[simp] theorem sum8_toNat (bs : Bytes) : (sum8 bs).toNat = byteSum bs % 256 := by
  simp [sum8]

theorem sum8_eq_iff (bs : Bytes) (c : Byte) : sum8 bs = c ↔ byteSum bs % 256 = c.toNat := by
  rw [← BitVec.toNat_inj, sum8_toNat]

@[simp] theorem append_length (b : Bytes) : (append b).length = b.length + 1 := by
  simp [append]

@[simp] theorem lastByte_concat (b : Bytes) (c : Byte) : lastByte (b ++ [c]) = c := by
  simp [lastByte]

/-- A frame that is long enough is a body and a checksum byte. -/
theorem exists_body {f : Bytes} (h : 3 ≤ f.length) : ∃ b c, f = b ++ [c] ∧ 2 ≤ b.length := by
  obtain rfl | ⟨b, c, rfl⟩ := List.eq_nil_or_concat f
  · simp at h
  · exact ⟨b, c, by simp, by simpa using h⟩

theorem verify_short {f : Bytes} (h : f.length < 3) : verify f = .lengthError := by
  simp [verify, h]

/-- `VERIFY` of a body and a checksum byte: the byte is compared with the sum of the body (R92 b). -/
theorem verify_concat {b : Bytes} {c : Byte} (h : 2 ≤ b.length) :
    verify (b ++ [c]) = .verdict (decide (byteSum b % 256 = c.toNat)) := by
  have hb : ¬ (b ++ [c]).length < 3 := by simp; omega
  have hc := c.isLt
  simp only [verify, hb, if_false, lastByte_concat, byteSum_append, byteSum_cons, byteSum_nil,
    VerifyResult.verdict.injEq, Bool.beq_eq_decide_eq, decide_eq_decide]
  omega

theorem verify_eq_lengthError {f : Bytes} : verify f = .lengthError ↔ f.length < 3 := by
  unfold verify
  split <;> simp_all

/-- A valid frame is its own body with the checksum appended (R95). -/
theorem verify_true_iff {f : Bytes} :
    verify f = .verdict true ↔ ∃ b, 2 ≤ b.length ∧ f = b ++ [sum8 b] := by
  constructor
  · intro h
    have h3 : 3 ≤ f.length := by
      by_contra hn
      rw [verify_short (by omega)] at h
      simp at h
    obtain ⟨b, c, rfl, hb⟩ := exists_body h3
    rw [verify_concat hb] at h
    have hc : sum8 b = c := (sum8_eq_iff b c).2 (by simpa using h)
    exact ⟨b, hb, by rw [hc]⟩
  · rintro ⟨b, hb, rfl⟩
    rw [verify_concat hb]
    simp

/-! ### Windows -/

theorem memRead_eq_some {f w : Bytes} {i n : Nat} :
    memRead f i n = some w ↔ i + n ≤ f.length ∧ (f.drop i).take n = w := by
  simp [memRead]

theorem memRead_length {f w : Bytes} {i n : Nat} (h : memRead f i n = some w) : w.length = n := by
  obtain ⟨hl, rfl⟩ := memRead_eq_some.1 h
  simp; omega

theorem byteAt_of_lt {f : Bytes} {i : Nat} (h : i < f.length) : byteAt f i = some f[i] := by
  rw [byteAt, memRead, if_pos (by omega), List.drop_eq_getElem_cons h]
  rfl

theorem win2At_of_lt {f : Bytes} {i : Nat} (h : i + 1 < f.length) :
    win2At f i = some ⟨f[i], f[i + 1]⟩ := by
  rw [win2At, memRead, if_pos (by omega), List.drop_eq_getElem_cons (by omega), List.drop_eq_getElem_cons h]
  rfl

theorem win3At_of_lt {f : Bytes} {i : Nat} (h : i + 2 < f.length) :
    win3At f i = some ⟨f[i], f[i + 1], f[i + 2]⟩ := by
  rw [win3At, memRead, if_pos (by omega), List.drop_eq_getElem_cons (by omega),
    List.drop_eq_getElem_cons (by omega), List.drop_eq_getElem_cons h]
  rfl

theorem win4At_of_lt {f : Bytes} {i : Nat} (h : i + 3 < f.length) :
    win4At f i = some ⟨f[i], f[i + 1], f[i + 2], f[i + 3]⟩ := by
  rw [win4At, memRead, if_pos (by omega), List.drop_eq_getElem_cons (by omega),
    List.drop_eq_getElem_cons (by omega), List.drop_eq_getElem_cons (by omega), List.drop_eq_getElem_cons h]
  rfl

theorem memRead_isSome {f : Bytes} {i n : Nat} : (memRead f i n).isSome ↔ i + n ≤ f.length := by
  simp [memRead, Option.isSome_iff_exists]

@[simp] theorem bytes2_length (w : Win2) : (bytes2 w).length = 2 := rfl
@[simp] theorem bytes3_length (w : Win3) : (bytes3 w).length = 3 := rfl
@[simp] theorem bytes4_length (w : Win4) : (bytes4 w).length = 4 := rfl

theorem uintLE_pair (b0 b1 : Byte) : uintLE [b0, b1] = b0.toNat + 256 * b1.toNat := by
  simp [uintLE]

theorem intLE16_range (w : Win2) : -32768 ≤ intLE16 w ∧ intLE16 w ≤ 32767 := by
  have h0 := w.b0.isLt
  have h1 := w.b1.isLt
  simp only [intLE16, bytes2, uintLE_pair]
  split <;> omega

theorem uintLE_lt (w : Bytes) : uintLE w < 256 ^ w.length := by
  induction w with
  | nil => simp [uintLE]
  | cons b rest ih =>
    have hb := b.isLt
    simp only [uintLE, List.length_cons, Nat.pow_succ]
    omega

end Sys2Proof.Machine

namespace Sys2Proof

open Sys2Proof.Machine

/-! ### Keys -/

theorem classify_eq_some {f : Bytes} {k : Key} :
    classify f = some k ↔
      ∃ c sc rest, f = c :: sc :: rest ∧ k = ⟨c, sc, rest.length + 2⟩ := by
  match f with
  | [] => simp [classify]
  | [_] => simp [classify]
  | c :: sc :: rest => simp [classify, eq_comm]

theorem classify_isSome {f : Bytes} : (classify f).isSome ↔ 2 ≤ f.length := by
  match f with
  | [] => simp [classify]
  | [_] => simp [classify]
  | _ :: _ :: _ => simp [classify]

/-- One row of `LOOKUP`: it hits, or the search goes on. -/
theorem row_hit {p : Prop} [Decidable p] {here kind : Kind} {rest : Option Kind}
    (h : (if p then some here else rest) = some kind) : (p ∧ here = kind) ∨ rest = some kind := by
  split_ifs at h with hp
  · exact .inl ⟨hp, Option.some.inj h⟩
  · exact .inr h

/-- A hit of `LOOKUP` fixes the key, the channel qualifier and the table (R112). -/
theorem lookup_eq_some {k : Key} {ch : Channel} {v : Variant} {kind : Kind} :
    lookup k ch v = some kind ↔
      k = keyOf kind ∧ (kind = .batt → ch = .notify) ∧ (variantOf kind = none ∨ variantOf kind = some v) := by
  constructor
  · intro h
    unfold lookup at h
    iterate 18
      rcases row_hit h with ⟨hit, rfl⟩ | h
      · simp [keyOf, variantOf, hit]
    cases h
  · rintro ⟨rfl, hc, hv⟩
    cases kind <;> simp_all [lookup, keyOf, variantOf]

end Sys2Proof
end

