-- ==== Sys2Proof/Laws/State.lean ====
section
/-! SUPPORT. One lemma for each field and each update of the state, so that no proof unfolds a record update. -/

namespace Sys2Proof.Machine.State

variable (s : State) (es : List Event) (bytes : Bytes) (ack : Bool) (r : UnitResult) (t : Byte)
  (code : ErrCode) (ch : Channel) (n : Nat)

@[simp] theorem emit_params : (s.emit es).params = s.params := rfl
@[simp] theorem emit_input : (s.emit es).input = s.input := rfl
@[simp] theorem emit_opIndex : (s.emit es).opIndex = s.opIndex := rfl
@[simp] theorem emit_btype : (s.emit es).btype = s.btype := rfl
@[simp] theorem emit_ev : (s.emit es).ev = s.ev ++ es := rfl
@[simp] theorem emit_er : (s.emit es).er = s.er := rfl
@[simp] theorem emit_wr : (s.emit es).wr = s.wr := rfl
@[simp] theorem emit_ur : (s.emit es).ur = s.ur := rfl

@[simp] theorem write_params : (s.write bytes ack).params = s.params := rfl
@[simp] theorem write_input : (s.write bytes ack).input = s.input := rfl
@[simp] theorem write_opIndex : (s.write bytes ack).opIndex = s.opIndex := rfl
@[simp] theorem write_btype : (s.write bytes ack).btype = s.btype := rfl
@[simp] theorem write_ev : (s.write bytes ack).ev = s.ev := rfl
@[simp] theorem write_er : (s.write bytes ack).er = s.er := rfl
@[simp] theorem write_wr : (s.write bytes ack).wr = s.wr ++ [⟨bytes, ack⟩] := rfl
@[simp] theorem write_ur : (s.write bytes ack).ur = s.ur := rfl

@[simp] theorem yield_params : (s.yield r).params = s.params := rfl
@[simp] theorem yield_input : (s.yield r).input = s.input := rfl
@[simp] theorem yield_opIndex : (s.yield r).opIndex = s.opIndex := rfl
@[simp] theorem yield_btype : (s.yield r).btype = s.btype := rfl
@[simp] theorem yield_ev : (s.yield r).ev = s.ev := rfl
@[simp] theorem yield_er : (s.yield r).er = s.er := rfl
@[simp] theorem yield_wr : (s.yield r).wr = s.wr := rfl
@[simp] theorem yield_ur : (s.yield r).ur = s.ur ++ [r] := rfl

@[simp] theorem identify_params : (s.identify t).params = s.params := rfl
@[simp] theorem identify_input : (s.identify t).input = s.input := rfl
@[simp] theorem identify_opIndex : (s.identify t).opIndex = s.opIndex := rfl
@[simp] theorem identify_btype : (s.identify t).btype = some t := rfl
@[simp] theorem identify_ev : (s.identify t).ev = s.ev := rfl
@[simp] theorem identify_er : (s.identify t).er = s.er := rfl
@[simp] theorem identify_wr : (s.identify t).wr = s.wr := rfl
@[simp] theorem identify_ur : (s.identify t).ur = s.ur := rfl

@[simp] theorem clearSession_params : s.clearSession.params = s.params := rfl
@[simp] theorem clearSession_input : s.clearSession.input = s.input := rfl
@[simp] theorem clearSession_opIndex : s.clearSession.opIndex = s.opIndex := rfl
@[simp] theorem clearSession_btype : s.clearSession.btype = none := rfl
@[simp] theorem clearSession_ev : s.clearSession.ev = s.ev := rfl
@[simp] theorem clearSession_er : s.clearSession.er = s.er := rfl
@[simp] theorem clearSession_wr : s.clearSession.wr = s.wr := rfl
@[simp] theorem clearSession_ur : s.clearSession.ur = s.ur := rfl

@[simp] theorem raise_params : (s.raise code ch n).params = s.params := rfl
@[simp] theorem raise_input : (s.raise code ch n).input = s.input := rfl
@[simp] theorem raise_opIndex : (s.raise code ch n).opIndex = s.opIndex := rfl
@[simp] theorem raise_btype : (s.raise code ch n).btype = s.btype := rfl
@[simp] theorem raise_ev : (s.raise code ch n).ev = s.ev := rfl
@[simp] theorem raise_er : (s.raise code ch n).er = s.er ++ [⟨code, ch, n⟩] := rfl
@[simp] theorem raise_wr : (s.raise code ch n).wr = s.wr := rfl
@[simp] theorem raise_ur : (s.raise code ch n).ur = s.ur := rfl

/-- Two appends to the event stream are one. -/
theorem emit_emit (es' : List Event) : (s.emit es).emit es' = s.emit (es ++ es') := by
  simp [emit]

theorem active_of_null (h : s.btype = none) : s.active = .none := by
  simp [active, h]

theorem active_of_some (h : s.btype = some t) : s.active = mapCode s.params t := by
  simp [active, h]

end Sys2Proof.Machine.State
end

