-- ==== Sys2Proof/Laws/Ops.lean ====
section
/-! SUPPORT. What each shared operation can answer, said once: the length contract, unit results, frame kinds, the
receive pipeline, `exec` and `step`. -/

namespace Sys2Proof.Machine

theorem whenAdmitted_pos {n : Nat} {s : State} {r : Result} (h : admits s.params n = true) :
    whenAdmitted n s r = r := by
  simp [whenAdmitted, h]

theorem whenAdmitted_neg {n : Nat} {s : State} {r : Result} (h : admits s.params n = false) :
    whenAdmitted n s r = .refused .overLength := by
  simp [whenAdmitted, h]

theorem whenAdmitted_next {n : Nat} {s s' : State} {r : Result} (h : whenAdmitted n s r = .next s') :
    admits s.params n = true ∧ r = .next s' := by
  unfold whenAdmitted at h
  split at h
  · exact ⟨‹_›, h⟩
  · cases h

theorem yieldOr_next {r : Option UnitResult} {s s' : State} (h : yieldOr r s = .next s') :
    ∃ v, r = some v ∧ s' = s.yield v := by
  cases r with
  | none => cases h
  | some v => exact ⟨v, rfl, by cases h; rfl⟩

/-- Everything a frame kind's rule can do: it appends events, and only `ID` on a null `BTYPE` writes `BTYPE`. -/
theorem runFrame_spec {i : Instr} {k : Kind} (hk : kindOf i = some k) (s : State) :
    runFrame i s = exec i s ∧
      ((∃ es, exec i s = .next (s.emit es)) ∨
        (∃ t es, k = .id ∧ s.btype = none ∧ exec i s = .next ((s.identify t).emit es))) := by
  cases i <;> simp only [kindOf, reduceCtorEq, Option.some.injEq] at hk
  case id t serial ver pad battery =>
    refine ⟨rfl, ?_⟩
    cases hb : s.btype with
    | some b => exact .inl ⟨_, by simp [exec, execId, isNull, hb]; rfl⟩
    | none =>
      refine .inr ⟨t, [.blockType t, .serialNumber (uintLE (bytes4 serial)), .version ver,
        .batteryLevel (x10 battery.toNat)] ++ [.blockTypeDetected t], hk.symm, rfl, ?_⟩
      rw [← State.emit_emit]
      simp only [exec, execId, isNull, hb, Option.isNone_none, if_true]
      rfl
  case orient o b3 b4 b5 b6 b7 b8 pad =>
    refine ⟨rfl, .inl ?_⟩
    cases hb : s.params.orientBase <;> exact ⟨_, by simp [exec, execOrient, hb]; rfl⟩
  all_goals exact ⟨rfl, .inl ⟨_, rfl⟩⟩

/-- The fields of a frame whose length is its kind's table length always exist (20_memory.md R46). -/
theorem parse_isSome {k : Kind} {f : Bytes} (h : f.length = (keyOf k).length) :
    ∃ i, parse k f = some i ∧ kindOf i = some k ∧ i.wf = true := by
  cases k <;> simp only [keyOf] at h <;>
    simp [parse, byteAt_of_lt, win2At_of_lt, win3At_of_lt, win4At_of_lt, memRead, h, kindOf, Instr.wf]

/-- After `VERIFY`, a frame has no row, or a row and all its fields. -/
theorem decodeVerified_cases (ch : Channel) (v : Variant) {f : Bytes} (hf : 2 ≤ f.length) :
    (∃ k, classify f = some k ∧ lookup k ch v = none ∧ decodeVerified ch v f = .error .unrecognised) ∨
      ∃ kind i, classify f = some (keyOf kind) ∧ lookup (keyOf kind) ch v = some kind ∧
        parse kind f = some i ∧ kindOf i = some kind ∧ i.wf = true ∧ decodeVerified ch v f = .ok i := by
  obtain ⟨k, hk⟩ := Option.isSome_iff_exists.1 (classify_isSome.2 hf)
  cases hl : lookup k ch v with
  | none => exact .inl ⟨k, hk, hl, by simp [decodeVerified, hk, hl]⟩
  | some kind =>
    obtain ⟨rfl, -, -⟩ := lookup_eq_some.1 hl
    have hlen : f.length = (keyOf kind).length := by
      obtain ⟨c, sc, rest, rfl, hkey⟩ := classify_eq_some.1 hk
      simp [hkey]
    obtain ⟨i, hp, hi, hw⟩ := parse_isSome hlen
    exact .inr ⟨kind, i, hk, hl, hp, hi, hw, by simp [decodeVerified, hk, hl, hp]⟩

/-- What the decoder answers: one of four cases, in the order of 60_exceptions.md R236. -/
theorem decode_cases (ch : Channel) (v : Variant) (f : Bytes) :
    (f.length < 3 ∧ decode ch v f = .error .lengthError) ∨
      (verify f = .verdict false ∧ decode ch v f = .error .checksumError) ∨
      (verify f = .verdict true ∧ ∃ k, classify f = some k ∧ lookup k ch v = none ∧
        decode ch v f = .error .unrecognised) ∨
      (verify f = .verdict true ∧ ∃ kind i, classify f = some (keyOf kind) ∧
        lookup (keyOf kind) ch v = some kind ∧ parse kind f = some i ∧ kindOf i = some kind ∧ i.wf = true ∧
        decode ch v f = .ok i) := by
  cases hv : verify f with
  | lengthError => exact .inl ⟨verify_eq_lengthError.1 hv, by simp [decode, hv]⟩
  | verdict b =>
    cases b with
    | false => exact .inr (.inl ⟨rfl, by simp [decode, hv]⟩)
    | true =>
      obtain ⟨body, hb, hfb⟩ := verify_true_iff.1 hv
      have hf : 2 ≤ f.length := by rw [hfb]; simp; omega
      have hd : decode ch v f = decodeVerified ch v f := by simp [decode, hv]
      rw [hd]
      rcases decodeVerified_cases ch v hf with h | h
      · exact .inr (.inr (.inl ⟨rfl, h⟩))
      · exact .inr (.inr (.inr ⟨rfl, h⟩))

/-- What a received frame within `MAXLEN` does: an error record, nothing, or its frame kind's rule. -/
theorem rxFrame_cases (ch : Channel) (f : Bytes) (s : State) (ha : admits s.params f.length = true) :
    (f.length < 3 ∧ rxFrame ch f s = .next (s.raise .lengthError ch f.length)) ∨
      (verify f = .verdict false ∧ rxFrame ch f s = .next (s.raise .checksumError ch f.length)) ∨
      (verify f = .verdict true ∧ ∃ k, classify f = some k ∧ lookup k ch s.active = none ∧
        rxFrame ch f s = .next s) ∨
      (verify f = .verdict true ∧ ∃ kind i, classify f = some (keyOf kind) ∧
        lookup (keyOf kind) ch s.active = some kind ∧ parse kind f = some i ∧ kindOf i = some kind ∧
        i.wf = true ∧ rxFrame ch f s = exec i s) := by
  rw [rxFrame, whenAdmitted_pos ha]
  rcases decode_cases ch s.active f with ⟨h, hd⟩ | ⟨h, hd⟩ | ⟨h, k, hk, hl, hd⟩ | ⟨h, kind, i, hk, hl, hp, hi, hw, hd⟩
  · exact .inl ⟨h, by simp [receive, hd, raiseError]⟩
  · exact .inr (.inl ⟨h, by simp [receive, hd, raiseError]⟩)
  · exact .inr (.inr (.inl ⟨h, k, hk, hl, by simp [receive, hd]⟩))
  · exact .inr (.inr (.inr ⟨h, kind, i, hk, hl, hp, hi, hw, by
      simp [receive, hd, (runFrame_spec hi s).1]⟩))

theorem exec_port_rx (ch : Channel) (f : Bytes) (s : State) :
    exec (portInstr (.rx ch f)) s = rxFrame ch f s := by
  cases ch <;> rfl

theorem step_cons {s : State} {t : Trans} {rest : List Trans} (h : s.input = t :: rest) :
    step s = exec (portInstr t) { s with input := rest, opIndex := s.opIndex + 1 } := by
  simp [step, fetch, h]

theorem step_nil {s : State} (h : s.input = []) : step s = .next s := by
  simp [step, fetch, h]

/-- Everything one operation can do to the state: nothing, one kind of record appended, or `BTYPE` written. -/
inductive Effect (s : State) : State → Prop where
  | same : Effect s s
  | emit (es : List Event) : Effect s (s.emit es)
  | identify (t : Byte) (es : List Event) (h : s.btype = none) : Effect s ((s.identify t).emit es)
  | raise (code : ErrCode) (ch : Channel) (n : Nat) : Effect s (s.raise code ch n)
  | write (b : Bytes) (ack : Bool) : Effect s (s.write b ack)
  | yield (r : UnitResult) : Effect s (s.yield r)
  | clear : Effect s s.clearSession

theorem frame_effect {i : Instr} {k : Kind} {s s' : State} (hk : kindOf i = some k) (h : exec i s = .next s') :
    Effect s s' := by
  rcases (runFrame_spec hk s).2 with ⟨es, he⟩ | ⟨t, es, -, hb, he⟩ <;> rw [he] at h <;> cases h
  · exact .emit es
  · exact .identify t es hb

theorem rxFrame_effect {ch : Channel} {f : Bytes} {s s' : State} (h : rxFrame ch f s = .next s') :
    Effect s s' := by
  rcases rxFrame_cases ch f s (whenAdmitted_next h).1 with
    ⟨-, he⟩ | ⟨-, he⟩ | ⟨-, _, -, -, he⟩ | ⟨-, kind, j, -, -, -, hj, -, he⟩ <;> rw [he] at h
  · cases h; exact .raise _ _ _
  · cases h; exact .raise _ _ _
  · cases h; exact .same
  · exact frame_effect hj h

/-- The inversion lemma of `exec`: a next state is one of the effects. -/
theorem exec_effect {i : Instr} {s s' : State} (h : exec i s = .next s') : Effect s s' := by
  cases hk : kindOf i with
  | some k => exact frame_effect hk h
  | none =>
    cases i <;> simp only [kindOf, reduceCtorEq] at hk
    case rxframeI f => exact rxFrame_effect h
    case rxframeN f => exact rxFrame_effect h
    case txbody b csEn ack => cases (whenAdmitted_next h).2; exact .write _ _
    case append b => cases (whenAdmitted_next h).2; exact .yield _
    case encodewrite b csEn => cases (whenAdmitted_next h).2; exact .yield _
    case disconnect => cases h; exact .clear
    case reset => cases h; exact .clear
    case sum8 | verify | lookup | uintle | x10 => cases h; exact .yield _
    all_goals
      obtain ⟨v, -, rfl⟩ := yieldOr_next h
      exact .yield _

/-- No port operation reads the error or the write stream (R30): from other contents of them it answers the same next
state, with the records of its own after those contents.  Only `TXBODY` adds to the write stream. -/
theorem exec_port_streams {s t : State} {tr : Trans} (er : List ErrRec) (wr : List WrRec)
    (h : exec (portInstr tr) s = .next t) :
    ∃ own w, t.er = s.er ++ own ∧ t.wr = s.wr ++ w ∧ ((∀ b c a, tr ≠ .tx b c a) → w = []) ∧
      exec (portInstr tr) { s with er := er, wr := wr } = .next { t with er := er ++ own, wr := wr ++ w } := by
  cases tr with
  | tx b c a =>
    obtain ⟨ha, hw⟩ := whenAdmitted_next h
    cases hw
    exact ⟨[], [⟨encodeWrite b c, a⟩], by simp, rfl, fun h => absurd rfl (h _ _ _),
      (whenAdmitted_pos (by exact ha)).trans (by simp; rfl)⟩
  | disc => cases h; exact ⟨[], [], by simp, by simp, fun _ => rfl, by simp; rfl⟩
  | rst => cases h; exact ⟨[], [], by simp, by simp, fun _ => rfl, by simp; rfl⟩
  | rx ch f =>
    rw [exec_port_rx] at h ⊢
    have ha := (whenAdmitted_next h).1
    rw [rxFrame, whenAdmitted_pos ha, receive] at h
    rw [rxFrame, whenAdmitted_pos (by exact ha), receive]
    have hact : ({ s with er := er, wr := wr } : State).active = s.active := rfl
    rw [hact]
    rcases decode_cases ch s.active f with
      ⟨-, hd⟩ | ⟨-, hd⟩ | ⟨-, _, -, -, hd⟩ | ⟨-, kind, j, -, -, -, hj, -, hd⟩ <;> rw [hd] at h ⊢
    · cases h; exact ⟨[_], [], rfl, by simp, fun _ => rfl, by simp [raiseError]; rfl⟩
    · cases h; exact ⟨[_], [], rfl, by simp, fun _ => rfl, by simp [raiseError]; rfl⟩
    · cases h; exact ⟨[], [], by simp, by simp, fun _ => rfl, by simp⟩
    · cases j <;> simp only [kindOf, reduceCtorEq] at hj
      case id =>
        simp only [runFrame, execId] at h ⊢
        split at h <;> cases h <;>
          exact ⟨[], [], by simp, by simp, fun _ => rfl, by simp_all [State.emit, State.identify]⟩
      case orient =>
        simp only [runFrame, execOrient] at h ⊢
        split at h <;> cases h <;> exact ⟨[], [], by simp, by simp, fun _ => rfl, by simp_all; rfl⟩
      all_goals cases h; exact ⟨[], [], by simp, by simp, fun _ => rfl, by simp [runFrame]; rfl⟩

end Sys2Proof.Machine
end

