-- ==== Sys2Proof/Laws/PerInstr.lean ====
section
/-! SUPPORT. Family `FrameShape`, per instruction: the encoding of a well-formed frame kind has the key of its row and
so the row's length, and it passes `VERIFY`; an operation without a frame has no encoding (30_encoding.md R60, R62, R78). -/

namespace Sys2Proof.Laws.FrameShape

open Sys2Proof Sys2Proof.Machine

/-- The statement of the family about one instruction as syntax. -/
def Statement (i : Instr) : Prop :=
  i.wf = true →
    match kindOf i with
    | some k => ∃ f, encode i = some f ∧ classify f = some (keyOf k) ∧ verify f = .verdict true
    | none => encode i = none

/-- What every frame kind needs: a payload that fills its row's length. -/
theorem of_payload {i : Instr} {k : Kind} (hk : kindOf i = some k)
    (hl : i.wf = true → (payload i).length + 3 = (keyOf k).length) : Statement i := by
  intro hw
  have hlen : (payload i ++ [sum8 ([(keyOf k).category, (keyOf k).subcommand] ++ payload i)]).length + 2 =
      (keyOf k).length := by
    simpa using hl hw
  simp only [hk]
  refine ⟨_, by rw [encode, hk]; rfl, classify_eq_some.2 ⟨_, _, _, rfl, ?_⟩,
    verify_true_iff.2 ⟨[(keyOf k).category, (keyOf k).subcommand] ++ payload i, by simp, rfl⟩⟩
  exact hlen ▸ rfl

theorem id (blockType : Byte) (serial : Win4) (version : Win3) (pad : Bytes) (battery : Byte) : Statement (.id blockType serial version pad battery) :=
  of_payload rfl fun hw => by simp_all [Instr.wf, payload, keyOf]

theorem batt (battery : Byte) : Statement (.batt battery) := of_payload rfl fun _ => rfl

theorem sbtn (status : Byte) : Statement (.sbtn status) := of_payload rfl fun _ => rfl

theorem button (status : Byte) : Statement (.button status) := of_payload rfl fun _ => rfl

theorem tap (x y z : Win2) (pad : Bytes) : Statement (.tap x y z pad) :=
  of_payload rfl fun hw => by simp_all [Instr.wf, payload, keyOf]

theorem shake (x y z : Win2) (pad : Bytes) : Statement (.shake x y z pad) :=
  of_payload rfl fun hw => by simp_all [Instr.wf, payload, keyOf]

theorem flip (x y z : Win2) (pad : Bytes) : Statement (.flip x y z pad) :=
  of_payload rfl fun hw => by simp_all [Instr.wf, payload, keyOf]

theorem orient (orientation b3 b4 b5 b6 b7 b8 : Byte) (pad : Bytes) : Statement (.orient orientation b3 b4 b5 b6 b7 b8 pad) :=
  of_payload rfl fun hw => by simp_all [Instr.wf, payload, keyOf]

theorem motion (arg0 arg1 arg2 : Byte) : Statement (.motion arg0 arg1 arg2) :=
  of_payload rfl fun _ => rfl

theorem bright (requestId mode : Byte) (brightness proximity : Win2) (pad : Bytes) : Statement (.bright requestId mode brightness proximity pad) :=
  of_payload rfl fun hw => by simp_all [Instr.wf, payload, keyOf]

theorem temphumid (requestId mode : Byte) (temperature humidity : Win2) : Statement (.temphumid requestId mode temperature humidity) :=
  of_payload rfl fun _ => rfl

theorem digchg (pin edge : Byte) : Statement (.digchg pin edge) := of_payload rfl fun _ => rfl

theorem anachg (pin : Byte) (pad : Bytes) (level : Byte) : Statement (.anachg pin pad level) :=
  of_payload rfl fun hw => by simp_all [Instr.wf, payload, keyOf]

theorem digin (requestId pin level : Byte) : Statement (.digin requestId pin level) :=
  of_payload rfl fun _ => rfl

theorem anain (requestId pin level mode : Byte) : Statement (.anain requestId pin level mode) :=
  of_payload rfl fun _ => rfl

theorem pwrout (requestId pin level : Byte) : Statement (.pwrout requestId pin level) :=
  of_payload rfl fun _ => rfl

theorem digout (requestId pin level : Byte) : Statement (.digout requestId pin level) :=
  of_payload rfl fun _ => rfl

theorem pwmout (requestId pin level : Byte) : Statement (.pwmout requestId pin level) :=
  of_payload rfl fun _ => rfl

theorem rxframeI (f : Bytes) : Statement (.rxframeI f) := fun _ => rfl

theorem rxframeN (f : Bytes) : Statement (.rxframeN f) := fun _ => rfl

theorem txbody (b : Bytes) (csEn ack : Bool) : Statement (.txbody b csEn ack) := fun _ => rfl

theorem disconnect : Statement (.disconnect) := fun _ => rfl

theorem reset : Statement (.reset) := fun _ => rfl

theorem sum8 (bytes : Bytes) : Statement (.sum8 bytes) := fun _ => rfl

theorem verify (f : Bytes) : Statement (.verify f) := fun _ => rfl

theorem append (b : Bytes) : Statement (.append b) := fun _ => rfl

theorem classify (f : Bytes) : Statement (.classify f) := fun _ => rfl

theorem lookup (k : Key) (ch : Channel) (v : Variant) : Statement (.lookup k ch v) := fun _ => rfl

theorem u8 (w : Bytes) : Statement (.u8 w) := fun _ => rfl

theorem uintle (w : Bytes) : Statement (.uintle w) := fun _ => rfl

theorem intle16 (w : Bytes) : Statement (.intle16 w) := fun _ => rfl

theorem scaledaccel (w : Bytes) : Statement (.scaledaccel w) := fun _ => rfl

theorem scaledtemp (w : Bytes) : Statement (.scaledtemp w) := fun _ => rfl

theorem ratio255 (w : Bytes) : Statement (.ratio255 w) := fun _ => rfl

theorem version (w : Bytes) : Statement (.version w) := fun _ => rfl

theorem x10 (u : X10Arg) : Statement (.x10 u) := fun _ => rfl

theorem boolz (w : Bytes) : Statement (.boolz w) := fun _ => rfl

theorem boolnz (w : Bytes) : Statement (.boolnz w) := fun _ => rfl

theorem encodewrite (b : Bytes) (csEn : Bool) : Statement (.encodewrite b csEn) := fun _ => rfl

end Sys2Proof.Laws.FrameShape
end

