-- ==== Sys2Proof/Tests/Slice0.lean ====
section
/-! SUPPORT. The model's own tests. Every expected value is taken from spec/95_test_vectors.md, named by its vector, or
from the worked example of the rule named; each test is one operation. Then one witness for each obligation that has
hypotheses: a concrete state and operands that meet them together, clause by clause. -/

namespace Sys2Proof.Tests

open Sys2Proof Sys2Proof.Machine

/-- The next state of an answer, where there is one. -/
def after : Result → Option State
  | .next s => some s
  | .fault _ => none
  | .refused _ => none

/-- The refusal of an answer, where there is one. -/
def refusal : Result → Option Refusal
  | .next _ => none
  | .fault _ => none
  | .refused r => some r

def events (r : Result) : Option (List Event) := (after r).map State.ev
def errors (r : Result) : Option (List ErrRec) := (after r).map State.er
def writes (r : Result) : Option (List WrRec) := (after r).map State.wr
def results (r : Result) : Option (List UnitResult) := (after r).map State.ur

/-- An identified state with the given variant active and `MAXLEN` at its least value. -/
def withVariant (v : Variant) : State :=
  { State.reset with
    params := ⟨some 17, Vector.replicate 256 v, .two⟩
    btype := some 2 }

/-- A state in which no frame has identified the block. -/
def fresh : State := { State.reset with params := ⟨some 17, Vector.replicate 256 .move, .two⟩ }

/-- `withVariant .move` with the other layout of `ORIENT`. -/
def otherBase : State := { withVariant .move with params := ⟨some 17, Vector.replicate 256 .move, .three⟩ }

/-! ### WellFormed: an ill-formed term for each check -/

theorem test_wf_refuses_id : Instr.wf (.id 2 ⟨0, 0, 0, 0⟩ ⟨0, 0, 0⟩ [0, 0, 0] 0) = false := by decide
theorem test_wf_refuses_tap : Instr.wf (.tap ⟨0, 0⟩ ⟨0, 0⟩ ⟨0, 0⟩ [0, 0, 0, 0, 0, 0, 0]) = false := by decide
theorem test_wf_refuses_shake : Instr.wf (.shake ⟨0, 0⟩ ⟨0, 0⟩ ⟨0, 0⟩ [0, 0, 0, 0, 0, 0, 0, 0, 0]) = false := by decide
theorem test_wf_refuses_flip : Instr.wf (.flip ⟨0, 0⟩ ⟨0, 0⟩ ⟨0, 0⟩ []) = false := by decide
theorem test_wf_refuses_orient : Instr.wf (.orient 0 0 0 0 0 0 0 [0, 0, 0, 0, 0, 0, 0, 0]) = false := by decide
theorem test_wf_refuses_bright : Instr.wf (.bright 0 0 ⟨0, 0⟩ ⟨0, 0⟩ [0, 0, 0]) = false := by decide
theorem test_wf_refuses_anachg : Instr.wf (.anachg 0 [0] 0) = false := by decide
theorem test_wf_refuses_classify : Instr.wf (.classify [0]) = false := by decide
theorem test_wf_refuses_u8 : Instr.wf (.u8 []) = false := by decide
theorem test_wf_refuses_intle16 : Instr.wf (.intle16 [0]) = false := by decide
theorem test_wf_refuses_scaledaccel : Instr.wf (.scaledaccel [0, 0, 0]) = false := by decide
theorem test_wf_refuses_scaledtemp : Instr.wf (.scaledtemp []) = false := by decide
theorem test_wf_refuses_ratio255 : Instr.wf (.ratio255 [0, 0]) = false := by decide
theorem test_wf_refuses_version : Instr.wf (.version [0, 0]) = false := by decide
theorem test_wf_refuses_boolz : Instr.wf (.boolz []) = false := by decide
theorem test_wf_refuses_boolnz : Instr.wf (.boolnz [0, 0]) = false := by decide

/-! ### Decoding: a frame of the spec for each frame kind -/

/-- V-S1 -/
theorem test_decode_id : decode .indicate .none
    [0x00, 0x02, 0x02, 0x2A, 0x00, 0x00, 0x00, 0x01, 0x02, 0x03, 0x00, 0x00, 0x00, 0x00, 0x32, 0x66] =
    .ok (.id 0x02 ⟨0x2A, 0x00, 0x00, 0x00⟩ ⟨0x01, 0x02, 0x03⟩ [0, 0, 0, 0] 0x32) := by rfl

/-- V-S2 -/
theorem test_decode_batt : decode .notify .none
    [0x00, 0x00, 0x50, 0x50] =
    .ok (.batt 0x50) := by rfl

/-- V-BASE8 -/
theorem test_decode_sbtn : decode .indicate .none
    [0x00, 0x01, 0x03, 0x04] =
    .ok (.sbtn 0x03) := by rfl

/-- V-VAR1 -/
theorem test_decode_button : decode .notify .button
    [0x01, 0x00, 0x02, 0x03] =
    .ok (.button 0x02) := by rfl

/-- V-VAR2 -/
theorem test_decode_tap : decode .notify .move
    [0x01, 0x00, 0x00, 0xFC, 0x01, 0x00, 0xFF, 0x7F, 0x00, 0x00, 0x00, 0x00, 0x00, 0x00, 0x00, 0x00, 0x7C] =
    .ok (.tap ⟨0x00, 0xFC⟩ ⟨0x01, 0x00⟩ ⟨0xFF, 0x7F⟩ [0, 0, 0, 0, 0, 0, 0, 0]) := by rfl

/-- V-VAR3 -/
theorem test_decode_shake : decode .indicate .move
    [0x01, 0x01, 0x00, 0x02, 0x00, 0xFE, 0x00, 0x80, 0x11, 0x11, 0x11, 0x11, 0x11, 0x11, 0x11, 0x11, 0x0A] =
    .ok (.shake ⟨0x00, 0x02⟩ ⟨0x00, 0xFE⟩ ⟨0x00, 0x80⟩ [0x11, 0x11, 0x11, 0x11, 0x11, 0x11, 0x11, 0x11]) := by rfl

/-- V-VAR4 -/
theorem test_decode_flip : decode .notify .move
    [0x01, 0x02, 0xFF, 0xFF, 0x00, 0x00, 0x00, 0x04, 0x00, 0x00, 0x00, 0x00, 0x00, 0x00, 0x00, 0x00, 0x05] =
    .ok (.flip ⟨0xFF, 0xFF⟩ ⟨0x00, 0x00⟩ ⟨0x00, 0x04⟩ [0, 0, 0, 0, 0, 0, 0, 0]) := by rfl

/-- V-VAR5 -/
theorem test_decode_orient : decode .notify .move
    [0x01, 0x03, 0x03, 0x04, 0x00, 0x08, 0x00, 0xFC, 0x01, 0x00, 0x00, 0x00, 0x00, 0x00, 0x00, 0x00, 0x10] =
    .ok (.orient 0x03 0x04 0x00 0x08 0x00 0xFC 0x01 [0, 0, 0, 0, 0, 0, 0]) := by rfl

/-- V-VAR7 -/
theorem test_decode_motion : decode .notify .motion
    [0x01, 0x00, 0x01, 0x02, 0x03, 0x07] =
    .ok (.motion 0x01 0x02 0x03) := by rfl

/-- V-VAR8 -/
theorem test_decode_bright : decode .notify .brightness
    [0x01, 0x00, 0x07, 0x01, 0x34, 0x12, 0xFF, 0xFF, 0x00, 0x00, 0x00, 0x00, 0x4D] =
    .ok (.bright 0x07 0x01 ⟨0x34, 0x12⟩ ⟨0xFF, 0xFF⟩ [0, 0, 0, 0]) := by rfl

/-- V-VAR10 -/
theorem test_decode_temphumid : decode .notify .tempHumid
    [0x01, 0x00, 0x09, 0x01, 0xCE, 0xFF, 0xFF, 0xFF, 0xD6] =
    .ok (.temphumid 0x09 0x01 ⟨0xCE, 0xFF⟩ ⟨0xFF, 0xFF⟩) := by rfl

/-- V-VAR11 -/
theorem test_decode_digchg : decode .notify .gpio
    [0x01, 0x00, 0x04, 0x01, 0x06] =
    .ok (.digchg 0x04 0x01) := by rfl

/-- V-VAR12 -/
theorem test_decode_anachg : decode .notify .gpio
    [0x01, 0x01, 0x02, 0xEE, 0xDD, 0x80, 0x4F] =
    .ok (.anachg 0x02 [0xEE, 0xDD] 0x80) := by rfl

/-- V-VAR14 -/
theorem test_decode_digin : decode .indicate .gpio
    [0x01, 0x02, 0x05, 0x03, 0x01, 0x0C] =
    .ok (.digin 0x05 0x03 0x01) := by rfl

/-- V-VAR15 -/
theorem test_decode_anain : decode .notify .gpio
    [0x01, 0x03, 0x06, 0x02, 0xFF, 0x01, 0x0C] =
    .ok (.anain 0x06 0x02 0xFF 0x01) := by rfl

/-- V-VAR16 -/
theorem test_decode_pwrout : decode .notify .gpio
    [0x01, 0x04, 0x07, 0x01, 0x01, 0x0E] =
    .ok (.pwrout 0x07 0x01 0x01) := by rfl

/-- V-VAR17 -/
theorem test_decode_digout : decode .notify .gpio
    [0x01, 0x05, 0x08, 0x02, 0x00, 0x10] =
    .ok (.digout 0x08 0x02 0x00) := by rfl

/-- V-VAR18 -/
theorem test_decode_pwmout : decode .notify .gpio
    [0x01, 0x06, 0x09, 0x04, 0x33, 0x47] =
    .ok (.pwmout 0x09 0x04 0x33) := by rfl

/-- V-ERR4: too short, whatever the bytes. -/
theorem test_decode_too_short : decode .notify .none [0x01, 0xFF] = .error .lengthError := by rfl

/-- V-SUM20 and V-P5: the precedence bug is not there. -/
theorem test_decode_bad_checksum : decode .notify .none [0x00, 0x00, 0x50, 0x51] = .error .checksumError := by rfl

/-- V-S1b: Scenario 1 as listed, of length 17, has no entry. -/
theorem test_decode_seventeen_bytes : decode .indicate .none
    [0x00, 0x02, 0x02, 0x2A, 0x00, 0x00, 0x00, 0x01, 0x02, 0x03, 0x00, 0x00, 0x00, 0x00, 0x32, 0x00, 0x66] =
    .error .unrecognised := by rfl

/-- V-BASE7: `BATT` needs `NOTIFY`. -/
theorem test_decode_batt_on_indicate : decode .indicate .none [0x00, 0x00, 0x50, 0x50] = .error .unrecognised := by rfl

/-- V-VAR19: `LED` has no inbound table. -/
theorem test_decode_led : decode .notify .led [0x01, 0x00, 0x02, 0x03] = .error .unrecognised := by rfl

/-- V-KEY13: another variant's table is not searched. -/
theorem test_decode_other_variant : decode .notify .move [0x01, 0x00, 0x02, 0x03] = .error .unrecognised := by rfl

/-- V-ENC1 read as an encoding: the checksum comes last. -/
theorem test_encode_button : encode (.button 0x02) = some [0x01, 0x00, 0x02, 0x03] := by rfl

theorem test_encode_id : encode (.id 0x02 ⟨0x2A, 0x00, 0x00, 0x00⟩ ⟨0x01, 0x02, 0x03⟩ [0, 0, 0, 0] 0x32) =
    some [0x00, 0x02, 0x02, 0x2A, 0x00, 0x00, 0x00, 0x01, 0x02, 0x03, 0x00, 0x00, 0x00, 0x00, 0x32, 0x66] := by rfl

/-- The key words of R116 are pairwise different, and each is the key word of its kind's key. -/
theorem test_key_words_differ : (frameRows.map Row.word).Nodup := by decide

theorem test_key_words_of_keys : frameRows.all (fun r => keyWord (keyOf r.kind) == r.word) = true := by decide

/-! ### Words of the opcode table -/

theorem test_table_word_id :
    decodeTableWord 24 0x000210 = some (.id 0 ⟨0, 0, 0, 0⟩ ⟨0, 0, 0⟩ [0, 0, 0, 0] 0) := by rfl

theorem test_table_word_anain : decodeTableWord 24 0x010307 = some (.anain 0 0 0 0) := by rfl

/-- Category 0x02 has no entry (R63). -/
theorem test_table_word_unknown : decodeTableWord 24 0x020004 = none := by rfl

theorem test_fetch_word_orient :
    events (step (State.reset.withFetchWord 24 0x010311)) =
      some [.orientation 0 ⟨0, 1024⟩ ⟨0, 1024⟩ ⟨0, 1024⟩] := by decide

theorem test_fetch_word_batt : events (step (State.reset.withFetchWord 24 0x000004)) = some [.batteryLevel 0] := by
  decide

/-! ### Frame kinds through `RXFRAME` -/

/-- V-S1 -/
theorem test_emits_id_first :
    events (exec (.rxframeI [0x00, 0x02, 0x02, 0x2A, 0x00, 0x00, 0x00, 0x01, 0x02, 0x03, 0x00, 0x00, 0x00, 0x00, 0x32, 0x66]) fresh) =
      some [.blockType 2, .serialNumber 42, .version ⟨1, 2, 3⟩, .batteryLevel 500, .blockTypeDetected 2] := by decide

/-- V-BASE2 -/
theorem test_emits_id_again :
    events (exec (.rxframeN [0x00, 0x02, 0x07, 0x78, 0x56, 0x34, 0x12, 0x00, 0x0A, 0xFF, 0xAA, 0xBB, 0xCC, 0xDD, 0x09, 0x3D]) (withVariant .move)) =
      some [.blockType 7, .serialNumber 305419896, .version ⟨0, 10, 255⟩, .batteryLevel 90] := by decide

/-- V-BASE6 -/
theorem test_emits_batt :
    events (exec (.rxframeN [0x00, 0x00, 0xFF, 0xFF]) fresh) =
      some [.batteryLevel 2550] := by decide

/-- V-BASE8 -/
theorem test_emits_sbtn :
    events (exec (.rxframeI [0x00, 0x01, 0x03, 0x04]) fresh) =
      some [.statusButton 3] := by decide

/-- V-VAR1 -/
theorem test_emits_button :
    events (exec (.rxframeN [0x01, 0x00, 0x02, 0x03]) (withVariant .button)) =
      some [.button 2] := by decide

/-- V-VAR2 -/
theorem test_emits_tap :
    events (exec (.rxframeN [0x01, 0x00, 0x00, 0xFC, 0x01, 0x00, 0xFF, 0x7F, 0x00, 0x00, 0x00, 0x00, 0x00, 0x00, 0x00, 0x00, 0x7C]) (withVariant .move)) =
      some [.tap ⟨-1024, 1024⟩ ⟨1, 1024⟩ ⟨32767, 1024⟩] := by decide

/-- V-VAR3 -/
theorem test_emits_shake :
    events (exec (.rxframeI [0x01, 0x01, 0x00, 0x02, 0x00, 0xFE, 0x00, 0x80, 0x11, 0x11, 0x11, 0x11, 0x11, 0x11, 0x11, 0x11, 0x0A]) (withVariant .move)) =
      some [.shake ⟨512, 1024⟩ ⟨-512, 1024⟩ ⟨-32768, 1024⟩] := by decide

/-- V-VAR4 -/
theorem test_emits_flip :
    events (exec (.rxframeN [0x01, 0x02, 0xFF, 0xFF, 0x00, 0x00, 0x00, 0x04, 0x00, 0x00, 0x00, 0x00, 0x00, 0x00, 0x00, 0x00, 0x05]) (withVariant .move)) =
      some [.flip ⟨-1, 1024⟩ ⟨0, 1024⟩ ⟨1024, 1024⟩] := by decide

/-- V-VAR5 -/
theorem test_emits_orient_base_two :
    events (exec (.rxframeN [0x01, 0x03, 0x03, 0x04, 0x00, 0x08, 0x00, 0xFC, 0x01, 0x00, 0x00, 0x00, 0x00, 0x00, 0x00, 0x00, 0x10]) (withVariant .move)) =
      some [.orientation 3 ⟨1027, 1024⟩ ⟨2048, 1024⟩ ⟨-1024, 1024⟩] := by decide

/-- V-VAR6 -/
theorem test_emits_orient_base_three :
    events (exec (.rxframeN [0x01, 0x03, 0x03, 0x04, 0x00, 0x08, 0x00, 0xFC, 0x01, 0x00, 0x00, 0x00, 0x00, 0x00, 0x00, 0x00, 0x10]) otherBase) =
      some [.orientation 3 ⟨4, 1024⟩ ⟨8, 1024⟩ ⟨508, 1024⟩] := by decide

/-- V-VAR7 -/
theorem test_emits_motion :
    events (exec (.rxframeN [0x01, 0x00, 0x01, 0x02, 0x03, 0x07]) (withVariant .motion)) =
      some [.motion 1 2 3] := by decide

/-- V-VAR8 -/
theorem test_emits_bright :
    events (exec (.rxframeN [0x01, 0x00, 0x07, 0x01, 0x34, 0x12, 0xFF, 0xFF, 0x00, 0x00, 0x00, 0x00, 0x4D]) (withVariant .brightness)) =
      some [.brightness 7 1 4660 655350] := by decide

/-- V-VAR9 -/
theorem test_emits_temphumid_positive :
    events (exec (.rxframeN [0x01, 0x00, 0x09, 0x00, 0xFA, 0x00, 0x2D, 0x00, 0x31]) (withVariant .tempHumid)) =
      some [.temphumid 9 0 ⟨250, 10⟩ 45] := by decide

/-- V-VAR10 -/
theorem test_emits_temphumid_negative :
    events (exec (.rxframeN [0x01, 0x00, 0x09, 0x01, 0xCE, 0xFF, 0xFF, 0xFF, 0xD6]) (withVariant .tempHumid)) =
      some [.temphumid 9 1 ⟨-50, 10⟩ (-1)] := by decide

/-- V-VAR11 -/
theorem test_emits_digchg :
    events (exec (.rxframeN [0x01, 0x00, 0x04, 0x01, 0x06]) (withVariant .gpio)) =
      some [.digitalChanged 4 1] := by decide

/-- V-VAR12 -/
theorem test_emits_anachg :
    events (exec (.rxframeN [0x01, 0x01, 0x02, 0xEE, 0xDD, 0x80, 0x4F]) (withVariant .gpio)) =
      some [.analogChanged 2 ⟨128, 255⟩] := by decide

/-- V-VAR13 -/
theorem test_emits_digin_zero :
    events (exec (.rxframeN [0x01, 0x02, 0x05, 0x03, 0x00, 0x0B]) (withVariant .gpio)) =
      some [.digitalInput 5 3 true] := by decide

/-- V-VAR14 -/
theorem test_emits_digin_one :
    events (exec (.rxframeI [0x01, 0x02, 0x05, 0x03, 0x01, 0x0C]) (withVariant .gpio)) =
      some [.digitalInput 5 3 false] := by decide

/-- V-VAR15 -/
theorem test_emits_anain :
    events (exec (.rxframeN [0x01, 0x03, 0x06, 0x02, 0xFF, 0x01, 0x0C]) (withVariant .gpio)) =
      some [.analogInput 6 2 ⟨255, 255⟩ 1] := by decide

/-- V-VAR16 -/
theorem test_emits_pwrout :
    events (exec (.rxframeN [0x01, 0x04, 0x07, 0x01, 0x01, 0x0E]) (withVariant .gpio)) =
      some [.powerOutput 7 1 true] := by decide

/-- V-VAR17 -/
theorem test_emits_digout :
    events (exec (.rxframeN [0x01, 0x05, 0x08, 0x02, 0x00, 0x10]) (withVariant .gpio)) =
      some [.digitalOutput 8 2 false] := by decide

/-- V-VAR18 -/
theorem test_emits_pwmout :
    events (exec (.rxframeN [0x01, 0x06, 0x09, 0x04, 0x33, 0x47]) (withVariant .gpio)) =
      some [.pwmOutput 9 4 ⟨51, 255⟩] := by decide

/-! ### Errors, ignored frames, and the session -/

/-- V-S4 -/
theorem test_rx_corrupted :
    errors (exec (.rxframeN [0x01, 0x00, 0x00, 0x04, 0x00, 0x08, 0x00, 0x00, 0x00, 0x00, 0x00, 0x00, 0x00, 0x00, 0x00,
      0x00, 0xF2]) (withVariant .move)) = some [⟨.checksumError, .notify, 17⟩] := by decide

/-- V-ERR1 -/
theorem test_rx_empty : errors (exec (.rxframeI []) fresh) = some [⟨.lengthError, .indicate, 0⟩] := by decide

/-- V-S5: `Ignored` leaves the whole state. -/
theorem test_rx_unrecognised : after (exec (.rxframeN [0xFF, 0x00, 0x00, 0xFF]) fresh) = some fresh := by rfl

/-- V-BASE10: a bad `ID` frame does not identify. -/
theorem test_rx_bad_id :
    (after (exec (.rxframeI [0x00, 0x02, 0x02, 0x2A, 0x00, 0x00, 0x00, 0x01, 0x02, 0x03, 0x00, 0x00, 0x00, 0x00, 0x32,
      0x67]) fresh)).map (fun s => (s.btype, s.er)) = some (none, [⟨.checksumError, .indicate, 16⟩]) := by decide

/-- V-BASE3: the end state. -/
theorem test_id_writes_btype :
    (after (exec (.rxframeI [0x00, 0x02, 0xFF, 0xFF, 0xFF, 0xFF, 0xFF, 0xFF, 0xFF, 0xFF, 0x00, 0x00, 0x00, 0x00, 0xFF,
      0xF9]) fresh)).map State.btype = some (some 255) := by decide

/-- V-BASE11 -/
theorem test_disconnect : (after (exec .disconnect (withVariant .gpio))).map State.btype = some none := by decide

/-- V-BASE13 -/
theorem test_reset : (after (exec .reset (withVariant .gpio))).map State.btype = some none := by decide

/-- V-ENC1 -/
theorem test_txbody : writes (exec (.txbody [0x01, 0x00, 0x02] true true) fresh) =
    some [⟨[0x01, 0x00, 0x02, 0x03], true⟩] := by decide

/-- V-ENC4 -/
theorem test_txbody_empty : writes (exec (.txbody [] false false) fresh) = some [⟨[], false⟩] := by decide

/-- R268 with `MAXLEN` = 17. -/
theorem test_rx_over_length :
    refusal (exec (.rxframeN (List.replicate 18 0)) fresh) = some .overLength := by decide

/-! ### Unit functions -/

/-- V-SUM5 -/
theorem test_sum8_no_carry_back : results (exec (.sum8 [0x80, 0x80, 0x01]) fresh) = some [.value (.byte 0x01)] := by decide

/-- V-SUM6 -/
theorem test_sum8_twenty : results (exec (.sum8 (List.replicate 20 0xFF)) fresh) = some [.value (.byte 0xEC)] := by decide

/-- V-SUM15 -/
theorem test_verify_wraps : results (exec (.verify [0xFF, 0xFF, 0xFE]) fresh) = some [.verify (.verdict true)] := by decide

/-- V-SUM11 -/
theorem test_verify_short : results (exec (.verify [0x07, 0x07]) fresh) = some [.verify .lengthError] := by decide

/-- V-SUM21 -/
theorem test_append_empty : results (exec (.append []) fresh) = some [.bytes [0x00]] := by decide

/-- V-SUM24 -/
theorem test_append_wraps : results (exec (.append [0xFF, 0xFF]) fresh) = some [.bytes [0xFF, 0xFF, 0xFE]] := by decide

/-- V-KEY1 -/
theorem test_classify : results (exec (.classify [0x00, 0x00, 0x50, 0x50]) fresh) = some [.key ⟨0x00, 0x00, 4⟩] := by decide

/-- V-KEY16 -/
theorem test_lookup_digin : results (exec (.lookup ⟨0x01, 0x02, 6⟩ .indicate .gpio) fresh) = some [.kind (some .digIn)] := by decide

/-- V-KEY19 -/
theorem test_lookup_other_length : results (exec (.lookup ⟨0x00, 0x02, 17⟩ .indicate .none) fresh) = some [.kind none] := by decide

/-- V-DEC1 -/
theorem test_u8 : results (exec (.u8 [0xFF]) fresh) = some [.value (.byte 255)] := by decide

/-- V-DEC3 -/
theorem test_uintle_four : results (exec (.uintle [0x78, 0x56, 0x34, 0x12]) fresh) = some [.value (.uint 305419896)] := by decide

/-- V-DEC4 -/
theorem test_uintle_unsigned : results (exec (.uintle [0xFF, 0xFF, 0xFF, 0xFF]) fresh) = some [.value (.uint 4294967295)] := by decide

/-- V-DEC9 -/
theorem test_intle16_smallest : results (exec (.intle16 [0x00, 0x80]) fresh) = some [.value (.sint (-32768))] := by decide

/-- V-DEC8 -/
theorem test_intle16_largest : results (exec (.intle16 [0xFF, 0x7F]) fresh) = some [.value (.sint 32767)] := by decide

/-- V-DEC15 -/
theorem test_scaledaccel : results (exec (.scaledaccel [0x00, 0xFC]) fresh) = some [.value (.scaled ⟨-1024, 1024⟩)] := by decide

/-- V-DEC22 -/
theorem test_scaledtemp : results (exec (.scaledtemp [0xCE, 0xFF]) fresh) = some [.value (.scaled ⟨-50, 10⟩)] := by decide

/-- V-DEC24 -/
theorem test_ratio255 : results (exec (.ratio255 [0x80]) fresh) = some [.value (.scaled ⟨128, 255⟩)] := by decide

/-- V-DEC26 -/
theorem test_version : results (exec (.version [0x00, 0x0A, 0xFF]) fresh) = some [.value (.version ⟨0, 10, 255⟩)] := by decide

/-- V-DEC28 -/
theorem test_x10_byte : results (exec (.x10 (.u8 0xFF)) fresh) = some [.value (.uint 2550)] := by decide

/-- V-DEC29 -/
theorem test_x10_word : results (exec (.x10 (.u16 0xFFFF)) fresh) = some [.value (.uint 655350)] := by decide

/-- V-DEC30 -/
theorem test_boolz_zero : results (exec (.boolz [0x00]) fresh) = some [.value (.bool true)] := by decide

/-- V-DEC30 -/
theorem test_boolz_nonzero : results (exec (.boolz [0xFF]) fresh) = some [.value (.bool false)] := by decide

/-- V-DEC31 -/
theorem test_boolnz_zero : results (exec (.boolnz [0x00]) fresh) = some [.value (.bool false)] := by decide

/-- V-DEC31 -/
theorem test_boolnz_nonzero : results (exec (.boolnz [0xFF]) fresh) = some [.value (.bool true)] := by decide

/-- V-ENC6 -/
theorem test_encodewrite : results (exec (.encodewrite [0xFF, 0xFF] true) fresh) = some [.bytes [0xFF, 0xFF, 0xFE]] := by decide

/-- V-ENC7 -/
theorem test_encodewrite_plain : results (exec (.encodewrite [0x01, 0x00, 0x02, 0x03] false) fresh) = some [.bytes [0x01, 0x00, 0x02, 0x03]] := by decide

/-- V-KEY5: the length saturates in the key word. -/
theorem test_key_word_saturates : keyWord ⟨0xAA, 0xBB, 300⟩ = 0xAABBFF := by decide

/-- V-DEC19: the arithmetic shift rounds down. -/
theorem test_accel_parts : (accelInt (-1), accelFrac (-1)) = (-1, 1023) := by decide

/-- V-DEC26, text form. -/
theorem test_version_text : versionText ⟨0, 10, 255⟩ = "0.10.255".toList := by decide

/-- The streaming form on `FF FF FE`: the registers after the last byte (95_test_vectors.md, section 2.1). -/
theorem test_stream : streamFrame 18 [0xFF, 0xFF, 0xFE] = ⟨0xFC, 0xFE, 3⟩ := by decide

/-- Lane words of V-DEC15, V-DEC25 and V-DEC29. -/
theorem test_lanes :
    [laneOf (.scaled ⟨-1024, 1024⟩), laneOf (.version ⟨1, 2, 3⟩), laneOf (.uint 655350)] =
      [0xFFFFFC00, 0x00010203, 0x0009FFF6] := by decide

/-! ### Witnesses: each shows values that meet an obligation's hypotheses, one conjunct for each clause -/

/-- `00 00 50 50`, V-S2. -/
def battFrame : Bytes := [0x00, 0x00, 0x50, 0x50]

/-- V-S1. -/
def idFrame : Bytes :=
  [0x00, 0x02, 0x02, 0x2A, 0x00, 0x00, 0x00, 0x01, 0x02, 0x03, 0x00, 0x00, 0x00, 0x00, 0x32, 0x66]

/-- V-VAR12. -/
def anachgFrame : Bytes := [0x01, 0x01, 0x02, 0xEE, 0xDD, 0x80, 0x4F]

theorem witness_Sum8IsSumModulo256 : List.Perm ([1, 2] : Bytes) [2, 1] := List.Perm.swap 2 1 []

theorem witness_VerifyComparesSumWithLastByte :
    ([7, 7] : Bytes).length < 3 ∧ ([0, 0, 0] : Bytes) = [0, 0] ++ [0] ∧ 3 ≤ ([0, 0, 0] : Bytes).length := by decide

theorem witness_ChecksumFormsAgree : 2 ≤ ([1, 2] : Bytes).length := by decide

theorem witness_AppendAndEncodewriteAddChecksum :
    admits fresh.params ((List.replicate 16 (0 : Byte)).length + 1) = true ∧
      admits fresh.params ((List.replicate 17 (0 : Byte)).length + 1) = false ∧
      admits fresh.params (List.replicate 17 (0 : Byte)).length = true ∧
      admits fresh.params (List.replicate 18 (0 : Byte)).length = false := by decide

theorem witness_StreamedChecksumEqualsCodec : 18 ≤ 18 := by decide

theorem witness_SingleByteChangeIsDetected :
    verify [1, 0, 2, 3] = .verdict true ∧ ([1, 0, 2, 3] : Bytes)[2]? = some 2 ∧ (3 : Byte) ≠ 2 := by decide

theorem witness_AppendedBodyVerifies :
    2 ≤ ([0, 0] : Bytes).length ∧ ([7] : Bytes).length < 2 ∧ verify [1, 0, 2, 3] = .verdict true ∧
      List.Perm ([1, 2] : Bytes) [2, 1] :=
  ⟨by decide, by decide, by decide, List.Perm.swap 2 1 []⟩

theorem witness_ClassifyReadsTwoBytesAndLength :
    ([0] : Bytes).length < 2 ∧ ([1, 0, 5] : Bytes).length = ([1, 0, 6] : Bytes).length ∧
      ([1, 0, 5] : Bytes).take 2 = ([1, 0, 6] : Bytes).take 2 := by decide

theorem witness_KeyWordSaturatesLength : 17 < (Key.mk 0 0 18).length := by decide

theorem witness_VersionKeepsThreeBytes : (1 : Byte) ≠ 0 ∧ (0 : Byte) = 0 := by decide

theorem witness_WrongWindowsAreRefused :
    (([] : Bytes).length ≠ 1 ∧ ([0, 0] : Bytes).length ≠ 1) ∧ (([0] : Bytes).length ≠ 2 ∧ ([0, 0, 0] : Bytes).length ≠ 2) ∧
      ([0, 0] : Bytes).length ≠ 3 ∧ ([0, 0, 0, 0] : Bytes).length ≠ 3 := by decide

theorem witness_IdFrameIdentifiesOnce :
    admits fresh.params 16 = true ∧ fresh.btype = none ∧
      admits (withVariant .move).params 16 = true ∧ (withVariant .move).btype ≠ none := by decide

theorem witness_BattFrameNeedsNotify : admits fresh.params 4 = true := by decide

theorem witness_SbtnFrameEmitsStatus : admits fresh.params 4 = true := by decide

theorem witness_ShortFrameRaisesLengthError :
    ([0, 0] : Bytes).length < 3 ∧ admits fresh.params ([0, 0] : Bytes).length = true := by decide

theorem witness_BadChecksumRaisesChecksumError :
    2 ≤ ([0, 0] : Bytes).length ∧ (([0, 0] : Bytes).map BitVec.toNat).sum % 256 ≠ (1 : Byte).toNat ∧
      admits fresh.params (([0, 0] : Bytes).length + 1) = true := by decide

theorem witness_RxframeChecksInFixedOrder :
    admits fresh.params battFrame.length = true ∧ ([0, 0] : Bytes).length < 3 ∧
      (([0, 0, 1] : Bytes) = [0, 0] ++ [1] ∧ 2 ≤ ([0, 0] : Bytes).length ∧ sum8 [0, 0] ≠ 1) ∧
      battFrame = (0x00 :: 0x00 :: [0x50]) ++ [sum8 (0x00 :: 0x00 :: [0x50])] ∧
      lookup ⟨0x00, 0x00, battFrame.length⟩ .indicate fresh.active = none ∧
      lookup ⟨0x00, 0x00, battFrame.length⟩ .notify fresh.active = some .batt := by decide

theorem witness_OverLongSequencesAreRefused :
    fresh.params.maxLen = some 17 ∧ 17 < (List.replicate 18 (0 : Byte)).length ∧
      17 ≤ (List.replicate 17 (0 : Byte)).length := by decide

theorem witness_SessionStateMachine :
    (∃ s', exec (portInstr .disc) (withVariant .move) = .next s') ∧ (∃ s', exec (portInstr .rst) fresh = .next s') ∧
      (∃ s', exec (portInstr (.tx [] true false)) fresh = .next s') ∧
      ((∃ s', exec (portInstr (.rx .notify [0, 0])) fresh = .next s') ∧ verify [0, 0] ≠ .verdict true) ∧
      ((∃ s', exec (portInstr (.rx .indicate idFrame)) fresh = .next s') ∧ verify idFrame = .verdict true ∧
        classify idFrame = some ⟨0x00, 0x02, 16⟩ ∧ fresh.btype = none) ∧
      ((∃ s', exec (portInstr (.rx .notify idFrame)) (withVariant .move) = .next s') ∧
        (withVariant .move).btype ≠ none) ∧
      (∃ s', exec (portInstr (.rx .notify battFrame)) fresh = .next s') ∧ verify battFrame = .verdict true ∧
        classify battFrame ≠ some ⟨0x00, 0x02, 16⟩ :=
  ⟨⟨_, rfl⟩, ⟨_, rfl⟩, ⟨_, rfl⟩, ⟨⟨_, rfl⟩, by decide⟩, ⟨⟨_, rfl⟩, by decide, by decide, rfl⟩, ⟨⟨_, rfl⟩, by decide⟩,
    ⟨_, rfl⟩, by decide, by decide⟩

theorem witness_OnlyIdAndSessionEndWriteBtype :
    (∃ s', exec (.rxframeI idFrame) fresh = .next s') ∧ (∃ s', exec .disconnect (withVariant .move) = .next s') ∧
      ∃ s', exec (.sbtn 3) fresh = .next s' :=
  ⟨⟨_, rfl⟩, ⟨_, rfl⟩, ⟨_, rfl⟩⟩

/-! For the statements of the form `EmitsOne`: the variant is active, the frame is within `MAXLEN`, and its unnamed
bytes have their length. -/

theorem witness_ButtonFrameEmitsStatus :
    (withVariant .button).active = .button ∧ admits (withVariant .button).params 4 = true := by decide

theorem witness_MoveFramesEmitAcceleration :
    (withVariant .move).active = .move ∧ admits (withVariant .move).params 17 = true ∧
      (List.replicate 8 (0x11 : Byte)).length = 8 := by decide

theorem witness_OrientFrameFollowsXyzBase :
    (withVariant .move).params.orientBase = .two ∧ (withVariant .move).active = .move ∧
      otherBase.params.orientBase = .three ∧ otherBase.active = .move ∧
      admits otherBase.params 17 = true ∧ (List.replicate 7 (0 : Byte)).length = 7 := by decide

theorem witness_MotionFrameEmitsThreeBytes :
    (withVariant .motion).active = .motion ∧ admits (withVariant .motion).params 6 = true := by decide

theorem witness_BrightFrameEmitsUnsigned :
    (withVariant .brightness).active = .brightness ∧ admits (withVariant .brightness).params 13 = true ∧
      ([0, 0, 0, 0] : Bytes).length = 4 := by decide

theorem witness_TemphumidFrameEmitsSigned :
    (withVariant .tempHumid).active = .tempHumid ∧ admits (withVariant .tempHumid).params 9 = true := by decide

theorem witness_DigchgFrameEmitsPinAndEdge :
    (withVariant .gpio).active = .gpio ∧ admits (withVariant .gpio).params 5 = true := by decide

theorem witness_AnachgFrameReadsIndexFive :
    (withVariant .gpio).active = .gpio ∧ admits (withVariant .gpio).params 7 = true := by decide

theorem witness_DiginFrameTestsForZero :
    (withVariant .gpio).active = .gpio ∧ admits (withVariant .gpio).params 6 = true := by decide

theorem witness_AnainFrameEmitsLevelAndMode :
    (withVariant .gpio).active = .gpio ∧ admits (withVariant .gpio).params 7 = true := by decide

theorem witness_OutputFramesTestForNonzero :
    (withVariant .gpio).active = .gpio ∧ admits (withVariant .gpio).params 6 = true := by decide

theorem witness_PwmoutFrameEmitsRatio :
    (withVariant .gpio).active = .gpio ∧ admits (withVariant .gpio).params 6 = true := by decide

theorem witness_LedHasNoInboundTable :
    (withVariant .led).active = .led ∧ admits (withVariant .led).params (([0x02] : Bytes).length + 3) = true := by decide

theorem witness_VariantIsActiveOnlyAfterIdentification :
    fresh.btype = none ∧ (withVariant .gpio).btype = some 2 ∧ fresh.active = .none ∧
      (withVariant .none).active = .none ∧ admits fresh.params (([] : Bytes).length + 3) = true := by decide

theorem witness_VariantKindsEmitExactlyOneEvent :
    kindOf (.anachg 2 [0xEE, 0xDD] 0x80) = some .anaChg ∧ variantOf .anaChg = some .gpio ∧
      (withVariant .gpio).params.orientBase = .two := by decide

theorem witness_EventPayloadsDependOnFrameOnly :
    fresh.params.orientBase = (withVariant .gpio).params.orientBase ∧
      opOutcome (.rx .indicate idFrame) fresh = some (.decoded .id) ∧
      opOutcome (.rx .notify idFrame) (withVariant .gpio) = some (.decoded .id) ∧
      (∃ s', exec (portInstr (.rx .indicate idFrame)) fresh = .next s') ∧
      ∃ s', exec (portInstr (.rx .notify idFrame)) (withVariant .gpio) = .next s' :=
  ⟨rfl, by decide, by decide, ⟨_, rfl⟩, ⟨_, rfl⟩⟩

theorem witness_EventsFollowFieldTable :
    opOutcome (.rx .indicate idFrame) fresh = some (.decoded .id) ∧
      opOutcome (.rx .notify anachgFrame) (withVariant .gpio) = some (.decoded .anaChg) := by decide

/-- Two `ANACHG` frames that differ in the unnamed indices 3 and 4 (and so in the checksum). -/
theorem witness_UnnamedPayloadBytesAreIgnored :
    opOutcome (.rx .notify anachgFrame) (withVariant .gpio) = some (.decoded .anaChg) ∧
      opOutcome (.rx .notify [0x01, 0x01, 0x02, 0x00, 0x00, 0x80, 0x84]) (withVariant .gpio) =
        some (.decoded .anaChg) ∧
      ∀ n : Nat, readIndex (withVariant .gpio).params.orientBase .anaChg n = true →
        anachgFrame[n]? = ([0x01, 0x01, 0x02, 0x00, 0x00, 0x80, 0x84] : Bytes)[n]? := by
  refine ⟨by decide, by decide, fun n hn => ?_⟩
  have h : n = 2 ∨ n = 5 := by
    simp [readIndex, layout] at hn
    omega
  rcases h with rfl | rfl <;> rfl

theorem witness_TxbodyWritesOneRecord :
    admits fresh.params ((List.replicate 16 (0 : Byte)).length + 1) = true ∧
      admits fresh.params (List.replicate 17 (0 : Byte)).length = true := by decide

theorem witness_TxbodyCommutesWithOtherPorts :
    (∀ (b : Bytes) (c a : Bool), Trans.rx .indicate idFrame ≠ .tx b c a) ∧
      (∃ s1 s2, exec (portInstr (.rx .indicate idFrame)) fresh = .next s1 ∧
        exec (.txbody [0x01, 0x00, 0x02] true true) s1 = .next s2) ∧
      ∃ s1 s2, exec (.txbody [0x01, 0x00, 0x02] true true) fresh = .next s1 ∧
        exec (portInstr (.rx .indicate idFrame)) s1 = .next s2 :=
  ⟨(by intro _ _ _ h; cases h), ⟨_, _, rfl, rfl⟩, ⟨_, _, rfl, rfl⟩⟩

theorem witness_WrittenFrameLoopsBack :
    admits fresh.params (([7] : Bytes).length + 1) = true ∧ ([7] : Bytes).length < 2 ∧
      admits fresh.params (([0x00, 0x00, 0x50] : Bytes).length + 1) = true ∧
      ([0x00, 0x00, 0x50] : Bytes) = 0x00 :: 0x00 :: [0x50] := by decide

/-- A state with one frame presented. -/
def presented : State := { fresh with input := [.rx .indicate idFrame, .disc] }

theorem witness_StepRunsPresentedOperation :
    fresh.input = [] ∧ presented.input = .rx .indicate idFrame :: [.disc] ∧
      admits presented.params idFrame.length = true ∧
      decode .indicate presented.active idFrame =
        .ok (.id 0x02 ⟨0x2A, 0x00, 0x00, 0x00⟩ ⟨0x01, 0x02, 0x03⟩ [0, 0, 0, 0] 0x32) :=
  ⟨rfl, rfl, by decide, rfl⟩

theorem witness_DecodeOfEncodeIsIdentity :
    (Instr.wf (.anachg 2 [0xEE, 0xDD] 0x80) = true ∧ kindOf (.anachg 2 [0xEE, 0xDD] 0x80) = some .anaChg ∧
        (Kind.anaChg = .batt → Channel.indicate = .notify) ∧
        (variantOf .anaChg = none ∨ variantOf .anaChg = some .gpio)) ∧
      Instr.wf (.batt 0x50) = true ∧ kindOf (.batt 0x50) = some .batt ∧
        (Kind.batt = .batt → Channel.notify = .notify) ∧ variantOf .batt = none := by decide

theorem witness_EncodeOfDecodeIsIdentity : decode .notify .none battFrame = .ok (.batt 0x50) := rfl

theorem witness_StepKeepsInvariant : Inv presented ∧ ∃ s', step presented = .next s' :=
  ⟨⟨rfl, by decide, by decide, by decide⟩, ⟨_, rfl⟩⟩

theorem witness_StepOnlyAppendsAndKeepsParams : ∃ s', step presented = .next s' := ⟨_, rfl⟩

theorem witness_RunInContractNeverStops : TraceInContract presented := by
  unfold TraceInContract
  decide

/-- Both cases of the conclusion arise: before and after the identification frame. -/
theorem witness_DetectionFiresOncePerConnection :
    presented.btype = none ∧ (∀ tr ∈ presented.input.take 1, clearsSession tr = false) ∧
      (∃ s', Host.Core.run core 1 presented = .next s') ∧ ∃ s', Host.Core.run core 0 presented = .next s' :=
  ⟨rfl, by decide, ⟨_, rfl⟩, ⟨_, rfl⟩⟩

/-- A frame of length 2, and one of length 3 with a wrong checksum; then an operation that runs and one that is refused. -/
theorem witness_BadFramesLeaveOnlyTheirRecords :
    (∀ p ∈ ([(.indicate, [0, 0]), (.notify, [0, 0, 1])] : List (Channel × Bytes)),
        admits fresh.params p.2.length = true ∧ verify p.2 ≠ .verdict true) ∧
      (∃ t, exec (portInstr (.rx .indicate idFrame)) fresh = .next t) ∧
      exec (portInstr (.rx .notify (List.replicate 18 0))) fresh = .refused .overLength :=
  ⟨by decide, ⟨_, rfl⟩, rfl⟩

/-- Fields that end at the last byte of a frame; a field of a table of two bytes. -/
theorem witness_FieldReadsAreLittleEndian :
    3 + 1 ≤ battFrame.length ∧ 2 + 2 ≤ battFrame.length ∧ 0 + 4 ≤ battFrame.length ∧
      ("tap", [⟨"x", 2, 2, .accel⟩, ⟨"y", 4, 2, .accel⟩, ⟨"z", 6, 2, .accel⟩]) ∈ layout .two .tap ∧
      2 ≤ (Field.mk "x" 2 2 .accel).len := by decide

end Sys2Proof.Tests
end

section
/-! SUPPORT. The machine invariant `Inv`: the ranges of the decoded values (30_encoding.md R66), one preservation rule
for each operation on the state, and the rules put together for frame kinds, received frames and a whole step. -/

namespace Sys2Proof.Machine

/-! ### Ranges of decoded values -/

@[simp] theorem signedOver_scaledAccel (w : Win2) : signedOver 1024 (scaledAccel w) = true := by
  simp [signedOver, scaledAccel, intLE16_range w]

@[simp] theorem signedOver_scaledTemp (w : Win2) : signedOver 10 (scaledTemp w) = true := by
  simp [signedOver, scaledTemp, intLE16_range w]

theorem levelOver255_ratio255 (b : Byte) : levelOver255 (ratio255 b) = true := by
  have hb : (0 : Int) ≤ b.toNat ∧ (b.toNat : Int) ≤ 255 := by omega
  simpa [levelOver255, ratio255] using hb

theorem uintLE_bytes2_le (w : Win2) : uintLE (bytes2 w) ≤ 65535 :=
  Nat.le_pred_of_lt (bytes2_length w ▸ uintLE_lt (bytes2 w))

theorem uintLE_bytes4_le (w : Win4) : uintLE (bytes4 w) ≤ 4294967295 :=
  Nat.le_pred_of_lt (bytes4_length w ▸ uintLE_lt (bytes4 w))

theorem legal_serialNumber (w : Win4) : (Event.serialNumber (uintLE (bytes4 w))).legal = true :=
  decide_eq_true (uintLE_bytes4_le w)

/-- A battery level is ten times a byte (R161, R162). -/
theorem legal_batteryLevel (b : Byte) : (Event.batteryLevel (x10 (u8 b).toNat)).legal = true := by
  have hb := b.isLt
  refine decide_eq_true ?_
  simp only [x10, u8]
  omega

/-- The proximity is ten times a 16-bit value (R197). -/
theorem legal_brightness (r m : Byte) (b p : Win2) :
    (Event.brightness r m (uintLE (bytes2 b)) (x10 (uintLE (bytes2 p)))).legal = true := by
  have hb := uintLE_bytes2_le b
  have hp := uintLE_bytes2_le p
  refine decide_eq_true ?_
  simp only [x10]
  omega

theorem legal_temphumid (r m : Byte) (t h : Win2) :
    (Event.temphumid r m (scaledTemp t) (intLE16 h)).legal = true := by
  simp [Event.legal, intLE16_range h]

/-! ### Lengths of frames and writes -/

theorem three_le_of_verdict {f : Bytes} {b : Bool} (h : verify f = .verdict b) : 3 ≤ f.length := by
  by_contra hn
  simp [verify_short (Nat.lt_of_not_le hn)] at h

@[simp] theorem encodeWrite_length (b : Bytes) (csEn : Bool) :
    (encodeWrite b csEn).length = outLength b csEn := by
  cases csEn <;> simp [encodeWrite, outLength]

/-! ### One rule for each operation on the state -/

variable {s : State}

theorem Inv.emit (hs : Inv s) {es : List Event} (hes : ∀ e ∈ es, e.legal = true) : Inv (s.emit es) where
  params := hs.params
  events e he := (List.mem_append.1 he).elim (hs.events e) (hes e)
  errors := hs.errors
  writes := hs.writes

theorem Inv.emit_one (hs : Inv s) {e : Event} (he : e.legal = true) : Inv (s.emit [e]) :=
  hs.emit (by simpa using he)

theorem Inv.raise (hs : Inv s) {code : ErrCode} {ch : Channel} {n : Nat}
    (hr : (ErrRec.mk code ch n).legal s.params = true) : Inv (s.raise code ch n) where
  params := hs.params
  events := hs.events
  errors r hmem := (List.mem_append.1 hmem).elim (hs.errors r) fun h => List.mem_singleton.1 h ▸ hr
  writes := hs.writes

theorem Inv.write (hs : Inv s) {b : Bytes} {ack : Bool} (hb : admits s.params b.length = true) :
    Inv (s.write b ack) where
  params := hs.params
  events := hs.events
  errors := hs.errors
  writes w hmem := (List.mem_append.1 hmem).elim (hs.writes w) fun h => List.mem_singleton.1 h ▸ hb

theorem Inv.identify (hs : Inv s) (t : Byte) : Inv (s.identify t) := ⟨hs.params, hs.events, hs.errors, hs.writes⟩

theorem Inv.clearSession (hs : Inv s) : Inv s.clearSession := ⟨hs.params, hs.events, hs.errors, hs.writes⟩

/-- Presenting a transaction touches nothing the invariant speaks of (R27, R30). -/
theorem Inv.present (hs : Inv s) (rest : List Trans) (n : Nat) : Inv { s with input := rest, opIndex := n } :=
  ⟨hs.params, hs.events, hs.errors, hs.writes⟩

/-! ### Operations -/

theorem Inv.execId (hs : Inv s) {t battery : Byte} {serial : Win4} {ver : Win3} {pad : Bytes} {s' : State}
    (h : execId t serial ver pad battery s = .next s') : Inv s' := by
  have h4 : Inv (s.emit [.blockType (u8 t), .serialNumber (uintLE (bytes4 serial)), .version (version ver),
      .batteryLevel (x10 (u8 battery).toNat)]) :=
    hs.emit (by simpa only [List.forall_mem_cons] using
      ⟨rfl, legal_serialNumber _, rfl, legal_batteryLevel _, List.forall_mem_nil _⟩)
  simp only [Machine.execId] at h
  split at h <;> cases h
  · exact (h4.identify _).emit_one rfl
  · exact h4

/-- Both layouts of `ORIENT` read its axes with the same decoder (R195). -/
theorem Inv.execOrient (hs : Inv s) {o b3 b4 b5 b6 b7 b8 : Byte} {pad : Bytes} {s' : State}
    (h : execOrient o b3 b4 b5 b6 b7 b8 pad s = .next s') : Inv s' := by
  unfold Machine.execOrient at h
  split at h <;> cases h <;> exact hs.emit_one (by simp [Event.legal])

/-- A frame kind emits legal events only, whatever its operands. -/
theorem Inv.exec_frame (hs : Inv s) {i : Instr} {k : Kind} {s' : State} (hk : kindOf i = some k)
    (h : exec i s = .next s') : Inv s' := by
  cases i <;> simp only [kindOf, reduceCtorEq] at hk
  case id t serial ver pad battery => exact hs.execId (pad := pad) h
  case orient o b3 b4 b5 b6 b7 b8 pad => exact hs.execOrient (pad := pad) h
  case batt => cases h; exact hs.emit_one (legal_batteryLevel _)
  case bright => cases h; exact hs.emit_one (legal_brightness ..)
  case temphumid => cases h; exact hs.emit_one (legal_temphumid ..)
  case tap | shake | flip => cases h; exact hs.emit_one (by simp [Event.legal])
  case anachg | anain | pwmout => cases h; exact hs.emit_one (levelOver255_ratio255 _)
  case sbtn | button | motion | digchg | digin | pwrout | digout => cases h; exact hs.emit_one rfl

/-- A received frame raises an error on its own side of length 3, or runs a frame kind (R231, R232, R236). -/
theorem Inv.rxFrame (hs : Inv s) {ch : Channel} {f : Bytes} {s' : State} (h : rxFrame ch f s = .next s') :
    Inv s' := by
  have ha := (whenAdmitted_next h).1
  rcases rxFrame_cases ch f s ha with
    ⟨hlt, he⟩ | ⟨hv, he⟩ | ⟨-, _, -, -, he⟩ | ⟨-, _, _, -, -, -, hk, -, he⟩ <;> rw [he] at h
  · cases h
    exact hs.raise (by simp [ErrRec.legal, ha, hlt])
  · cases h
    exact hs.raise (by simp [ErrRec.legal, ha, three_le_of_verdict hv])
  · cases h
    exact hs
  · exact hs.exec_frame hk h

theorem Inv.exec_port (hs : Inv s) {t : Trans} {s' : State} (h : exec (portInstr t) s = .next s') : Inv s' := by
  cases t with
  | rx ch f => exact hs.rxFrame ((exec_port_rx ch f s).symm.trans h)
  | tx b csEn ack =>
    obtain ⟨ha, hw⟩ := whenAdmitted_next h
    cases hw
    exact hs.write (by simpa using ha)
  | disc => cases h; exact hs.clearSession
  | rst => cases h; exact hs.clearSession

theorem Inv.step (hs : Inv s) {s' : State} (h : step s = .next s') : Inv s' := by
  cases hi : s.input with
  | nil =>
    rw [step_nil hi] at h
    cases h
    exact hs
  | cons t rest => exact (hs.present rest _).exec_port ((step_cons hi).symm.trans h)

end Sys2Proof.Machine

namespace Sys2Proof.Claims

open Sys2Proof.Machine

/-- Settles O53: each operation on the state keeps the invariant, so each port operation and each step does. -/
theorem stepKeepsInvariant : Obligations.StepKeepsInvariant := fun _ _ hs h => hs.step h

end Sys2Proof.Claims
end

section
/-! SUPPORT. What one operation does to `BTYPE`, to the parameters and to the streams (10_state.md R22, R23, R27, R30,
R32): frame kinds, received frames, port operations, unit functions, a whole step. -/

namespace Sys2Proof.Machine

variable {s s' : State}

/-! ### Who writes `BTYPE` -/

theorem byteAt_eq_getElem? (f : Bytes) (i : Nat) : byteAt f i = f[i]? := by
  by_cases h : i < f.length
  · rw [byteAt_of_lt h, List.getElem?_eq_getElem h]
  · simp [byteAt, memRead, h]

/-- The block type of a parsed `ID` frame is its byte at index 2 (R161; D6). -/
theorem getElem?_of_parse_id {f : Bytes} {t battery : Byte} {serial : Win4} {ver : Win3} {pad : Bytes}
    (h : parse .id f = some (.id t serial ver pad battery)) : f[2]? = some t := by
  obtain ⟨b, hb, h⟩ := Option.bind_eq_some_iff.1 h
  simp only [Option.bind_eq_bind, Option.bind_eq_some_iff, Option.some.injEq, Instr.id.injEq] at h
  obtain ⟨_, -, _, -, _, -, _, -, rfl, -⟩ := h
  rw [← byteAt_eq_getElem?, hb]

/-- A frame kind leaves `BTYPE`, or it is `ID` on a null `BTYPE`, which writes its block type (R161). -/
theorem frame_btype {i : Instr} {k : Kind} (hk : kindOf i = some k) (h : exec i s = .next s') :
    s'.btype = s.btype ∨
      (s.btype = none ∧ ∃ t serial ver pad b, i = .id t serial ver pad b ∧ s'.btype = some t) := by
  rcases (runFrame_spec hk s).2 with ⟨es, he⟩ | ⟨_, _, rfl, hb, -⟩
  · cases he.symm.trans h
    exact .inl rfl
  · cases i <;> simp only [kindOf, reduceCtorEq, Option.some.injEq] at hk
    case id t serial ver pad battery =>
      simp only [exec, execId, isNull, hb, Option.isNone_none, if_true] at h
      cases h
      exact .inr ⟨hb, t, serial, ver, pad, battery, rfl, rfl⟩

/-- A received frame leaves `BTYPE`, or it is a valid `ID` frame on a null `BTYPE`, which writes its byte at index 2. -/
theorem rxFrame_btype {ch : Channel} {f : Bytes} (h : rxFrame ch f s = .next s') :
    s'.btype = s.btype ∨
      (s.btype = none ∧ ∃ t, s'.btype = some t ∧ verify f = .verdict true ∧
        classify f = some (keyOf .id) ∧ f[2]? = some t) := by
  rcases rxFrame_cases ch f s (whenAdmitted_next h).1 with
    ⟨-, he⟩ | ⟨-, he⟩ | ⟨-, _, -, -, he⟩ | ⟨hv, kind, i, hc, -, hp, hi, -, he⟩ <;> rw [he] at h
  · cases h; exact .inl rfl
  · cases h; exact .inl rfl
  · cases h; exact .inl rfl
  · rcases frame_btype hi h with hsame | ⟨hb, t, serial, ver, pad, b, rfl, ht⟩
    · exact .inl hsame
    · cases hi
      exact .inr ⟨hb, t, ht, hv, hc, getElem?_of_parse_id hp⟩

/-- An operation that is neither a frame kind nor a port operation is a unit function: it answers a result and nothing
else (R96, R117, R140). -/
theorem unit_yields {i : Instr} (hk : kindOf i = none) (hp : ∀ tr, i ≠ portInstr tr) (h : exec i s = .next s') :
    ∃ r, s' = s.yield r := by
  cases i <;> simp only [kindOf, reduceCtorEq] at hk
  case rxframeI f => exact absurd rfl (hp (.rx .indicate f))
  case rxframeN f => exact absurd rfl (hp (.rx .notify f))
  case txbody b csEn ack => exact absurd rfl (hp (.tx b csEn ack))
  case disconnect => exact absurd rfl (hp .disc)
  case reset => exact absurd rfl (hp .rst)
  case append | encodewrite => cases (whenAdmitted_next h).2; exact ⟨_, rfl⟩
  case sum8 | verify | lookup | uintle | x10 => cases h; exact ⟨_, rfl⟩
  all_goals
    obtain ⟨v, -, hv⟩ := yieldOr_next h
    exact ⟨v, hv⟩

/-! ### What a step keeps -/

/-- What every operation does with the parts of the state other than `BTYPE` and `ur`. -/
structure Appends (s s' : State) : Prop where
  params : s'.params = s.params
  ev : s.ev <+: s'.ev
  er : s.er <+: s'.er
  wr : s.wr <+: s'.wr
  input : s'.input = s.input
  opIndex : s'.opIndex = s.opIndex

theorem Effect.appends (h : Effect s s') : Appends s s' := by
  cases h <;> constructor <;> simp

theorem frame_ur {i : Instr} {k : Kind} (hk : kindOf i = some k) (h : exec i s = .next s') : s'.ur = s.ur := by
  rcases (runFrame_spec hk s).2 with ⟨es, he⟩ | ⟨t, es, -, -, he⟩ <;> cases he.symm.trans h <;> rfl

theorem rxFrame_ur {ch : Channel} {f : Bytes} (h : rxFrame ch f s = .next s') : s'.ur = s.ur := by
  rcases rxFrame_cases ch f s (whenAdmitted_next h).1 with
    ⟨-, he⟩ | ⟨-, he⟩ | ⟨-, _, -, -, he⟩ | ⟨-, _, _, -, -, -, hi, -, he⟩ <;> rw [he] at h
  · cases h; rfl
  · cases h; rfl
  · cases h; rfl
  · exact frame_ur hi h

/-- No port operation answers a unit result (log entry 5). -/
theorem exec_port_ur {tr : Trans} (h : exec (portInstr tr) s = .next s') : s'.ur = s.ur := by
  cases tr with
  | rx ch f => exact rxFrame_ur ((exec_port_rx ch f s).symm.trans h)
  | tx b csEn ack => cases (whenAdmitted_next h).2; rfl
  | disc => cases h; rfl
  | rst => cases h; rfl

end Sys2Proof.Machine

namespace Sys2Proof.Claims

open Sys2Proof.Machine

/-- Settles O26: by the sort of the instruction, a frame kind, one of the port operations, or a unit function. -/
theorem onlyIdAndSessionEndWriteBtype : Obligations.OnlyIdAndSessionEndWriteBtype := by
  refine ⟨fun _ => ⟨rfl, rfl, rfl, rfl⟩, fun i s s' h => ?_⟩
  cases hk : kindOf i with
  | some k =>
    rcases frame_btype hk h with hsame | ⟨hb, t, serial, ver, pad, b, hi, ht⟩
    · exact .inl hsame
    · exact .inr (.inr ⟨hb, t, ht, .inl ⟨serial, ver, pad, b, hi⟩⟩)
  | none =>
    by_cases hp : ∃ tr, i = portInstr tr
    · obtain ⟨tr, rfl⟩ := hp
      cases tr with
      | rx ch f =>
        rcases rxFrame_btype ((exec_port_rx ch f s).symm.trans h) with hsame | ⟨hb, t, ht, hid⟩
        · exact .inl hsame
        · exact .inr (.inr ⟨hb, t, ht, .inr ⟨f, by cases ch <;> simp [portInstr], hid⟩⟩)
      | tx b csEn ack => cases (whenAdmitted_next h).2; exact .inl rfl
      | disc => cases h; exact .inr (.inl ⟨rfl, .inl rfl⟩)
      | rst => cases h; exact .inr (.inl ⟨rfl, .inr rfl⟩)
    · obtain ⟨r, rfl⟩ := unit_yields hk (not_exists.1 hp) h
      exact .inl rfl

/-- Settles O54: a step with a transaction presents it and runs one operation, and an operation only appends. -/
theorem stepOnlyAppendsAndKeepsParams : Obligations.StepOnlyAppendsAndKeepsParams := by
  intro s s' h
  cases hin : s.input with
  | nil =>
    cases (step_nil hin).symm.trans h
    simp [hin]
  | cons tr rest =>
    have hx := (step_cons hin).symm.trans h
    have hur := exec_port_ur hx
    obtain ⟨hparams, hev, her, hwr, hinput, hop⟩ := (exec_effect hx).appends
    exact ⟨hparams, hev, her, hwr, hur, hinput, by simpa using hop⟩

end Sys2Proof.Claims
end

section
/-! SUPPORT. The write stream is independent of everything else a port operation does (20_memory.md R52,
45_command_encoder.md R222): `TXBODY` is one write record, and a write may be moved across any other port operation. -/

namespace Sys2Proof.Machine

/-- The inversion rule of `TXBODY`: it answers exactly when its output is within `MAXLEN`, and then writes one record
(R220). -/
theorem exec_txbody_eq_next {b : Bytes} {csEn ack : Bool} {s s' : State} :
    exec (.txbody b csEn ack) s = .next s' ↔
      admits s.params (outLength b csEn) = true ∧ s.write (encodeWrite b csEn) ack = s' := by
  constructor
  · intro h
    obtain ⟨ha, hw⟩ := whenAdmitted_next h
    exact ⟨ha, Host.Outcome.next.inj hw⟩
  · rintro ⟨ha, rfl⟩
    exact whenAdmitted_pos ha

theorem exec_params {i : Instr} {s s' : State} (h : exec i s = .next s') : s'.params = s.params :=
  (exec_effect h).appends.params

section
variable {s t : State} {tr : Trans} (htr : ∀ b c a, tr ≠ .tx b c a) (bytes : Bytes) (ack : Bool)
include htr

/-- A port operation other than `TXBODY` goes the same way with one write record more on the stream. -/
theorem exec_port_after_write (h : exec (portInstr tr) s = .next t) :
    exec (portInstr tr) (s.write bytes ack) = .next (t.write bytes ack) := by
  obtain ⟨own, w, her, hwr, hw, hx⟩ := exec_port_streams s.er (s.wr ++ [⟨bytes, ack⟩]) h
  obtain rfl := hw htr
  have hwr' : t.wr = s.wr := by simpa using hwr
  simpa [State.write, ← her, hwr'] using hx

/-- A port operation other than `TXBODY` that runs after a write would have run before it, to the same end. -/
theorem exec_port_before_write (h : exec (portInstr tr) (s.write bytes ack) = .next t) :
    ∃ s', exec (portInstr tr) s = .next s' ∧ s'.write bytes ack = t := by
  obtain ⟨own, w, her, hwr, hw, hx⟩ := exec_port_streams s.er s.wr h
  obtain rfl := hw htr
  refine ⟨_, hx, ?_⟩
  have her' : s.er ++ own = t.er := her.symm
  have hwr' : s.wr ++ [] ++ [⟨bytes, ack⟩] = t.wr := by simpa using hwr.symm
  simp only [State.write, her', hwr']

end

end Sys2Proof.Machine

namespace Sys2Proof.Claims

open Sys2Proof.Machine

/-- Settles O47: a `TXBODY` is one write, a write moves across the other operation either way, and `MAXLEN`, which
decides whether the `TXBODY` answers, is the same on both sides of it. -/
theorem txbodyCommutesWithOtherPorts : Obligations.TxbodyCommutesWithOtherPorts := by
  intro s s1 s2 tr b csEn ack htr
  constructor
  · intro hport htx
    obtain ⟨ha, rfl⟩ := exec_txbody_eq_next.1 htx
    rw [exec_params hport] at ha
    exact ⟨_, exec_txbody_eq_next.2 ⟨ha, rfl⟩, exec_port_after_write htr _ ack hport⟩
  · intro htx hport
    obtain ⟨ha, rfl⟩ := exec_txbody_eq_next.1 htx
    obtain ⟨s3, h3, rfl⟩ := exec_port_before_write htr _ ack hport
    rw [← exec_params h3] at ha
    exact ⟨s3, h3, exec_txbody_eq_next.2 ⟨ha, rfl⟩⟩

end Sys2Proof.Claims
end

section
/-! SUPPORT. The number that `n` bytes at an index stand for (20_memory.md R43): its recursion, the window that
`MemRead` gives, and the decoder types of two bytes read from it. -/

namespace Sys2Proof.Claims

open Sys2Proof.Machine

/-! ### The number at an index -/

/-- The byte at the first index is the least significant; the rest is the number one index on. -/
theorem numberAt_succ (f : Bytes) (i n : Nat) :
    numberAt f i (n + 1) = (f.getD i 0).toNat + 256 * numberAt f (i + 1) n := by
  have hshift (k : Nat) : (f.getD (i + (k + 1)) 0).toNat <<< (8 * (k + 1)) =
      256 * ((f.getD (i + 1 + k) 0).toNat <<< (8 * k)) := by
    rw [Nat.shiftLeft_eq, Nat.shiftLeft_eq, show i + (k + 1) = i + 1 + k by omega, Nat.mul_succ, Nat.pow_add]
    ring
  simp only [numberAt, List.range_succ_eq_map, List.map_cons, List.map_map, List.sum_cons,
    Function.comp_def, Nat.succ_eq_add_one, hshift, List.sum_map_mul_left]
  simp

/-- `UINTLE` of the bytes from an index on is the number there (R43, R131). -/
theorem uintLE_take_drop {f : Bytes} {i n : Nat} (h : i + n ≤ f.length) :
    uintLE ((f.drop i).take n) = numberAt f i n := by
  induction n generalizing i with
  | zero => rfl
  | succ n ih =>
    have hi : i < f.length := by omega
    rw [numberAt_succ, List.drop_eq_getElem_cons hi, List.take_succ_cons, uintLE, ih (by omega),
      List.getD_eq_getElem f 0 hi]

theorem memRead_numberAt {f : Bytes} {i n : Nat} (h : i + n ≤ f.length) :
    ∃ w, memRead f i n = some w ∧ uintLE w = numberAt f i n :=
  ⟨_, memRead_eq_some.2 ⟨h, rfl⟩, uintLE_take_drop h⟩

/-! ### Fields -/

/-- `INTLE16` is the two's complement reading of the 16-bit number (R132). -/
theorem intLE16_eq_bmod (w : Win2) : intLE16 w = Int.bmod (uintLE (bytes2 w)) 65536 := by
  have hw := uintLE_bytes2_le w
  simp only [intLE16, Int.bmod]
  split <;> split <;> omega

theorem decodeField_u8 (f : Bytes) (i : Nat) (name : String) :
    decodeField f ⟨name, i, 1, .u8⟩ = (f[i]?).map Value.byte := by
  rw [← byteAt_eq_getElem?, byteAt, Option.map_bind]
  rfl

theorem decodeField_two {f : Bytes} {i : Nat} (h : i + 2 ≤ f.length) (name : String) :
    ∃ w : Win2, uintLE (bytes2 w) = numberAt f i 2 ∧
      ∀ d : DType, decodeField f ⟨name, i, 2, d⟩ = decodeWindow d (bytes2 w) := by
  obtain ⟨w, hr, hw⟩ := memRead_numberAt h
  obtain ⟨b0, b1, rfl⟩ := List.length_eq_two.1 (memRead_length hr)
  exact ⟨⟨b0, b1⟩, hw, fun d => by simp [decodeField, hr, bytes2]⟩

theorem decodeField_u32le {f : Bytes} {i : Nat} (h : i + 4 ≤ f.length) (name : String) :
    decodeField f ⟨name, i, 4, .u32le⟩ = some (.uint (numberAt f i 4)) := by
  obtain ⟨w, hr, hw⟩ := memRead_numberAt h
  obtain ⟨b0, b1, b2, b3, rfl⟩ := List.length_eq_four.1 (memRead_length hr)
  rw [← hw, decodeField, hr]
  rfl

/-- Every field of more than one byte has a little-endian type of its size, or is the version triple (R44, R67). -/
theorem layout_multibyte (base : OrientBase) (k : Kind) : ∀ e ∈ layout base k, ∀ fd ∈ e.2, 2 ≤ fd.len →
    (fd.len, fd.dtype) ∈
      [(2, DType.u16le), (2, .u16x10), (2, .s16le), (2, .accel), (2, .temp), (4, .u32le), (3, .ver3)] := by
  cases k <;> simp [layout]

/-- Settles O60: `MemRead` gives the window of the number, and each decoder type is a function of that number. -/
theorem fieldReadsAreLittleEndian : Obligations.FieldReadsAreLittleEndian := by
  refine ⟨fun _ _ _ => memRead_numberAt, fun f i name => ⟨fun _ => decodeField_u8 f i name, fun h2 => ?_,
    fun h4 => decodeField_u32le h4 name⟩, layout_multibyte⟩
  obtain ⟨w, hw, hd⟩ := decodeField_two h2 name
  simp only [hd, ← hw, ← intLE16_eq_bmod]
  exact ⟨rfl, rfl, rfl, rfl, rfl⟩

end Sys2Proof.Claims
end

section
/-! SUPPORT. A frame and its operand fields (30_encoding.md R60, R67): the fields of a frame kind are read from a frame
exactly when their bytes, `payload`, stand there from index 2 on.  Both round trips of the codec follow from that. -/

namespace Sys2Proof.Machine

variable {f : Bytes} {i n : Nat}

/-! ### Windows as bytes of the frame -/

/-- A window stands in a frame from an index on when its first byte does and the rest one index on. -/
theorem cons_prefix_drop {b : Byte} {w : Bytes} :
    b :: w <+: f.drop i ↔ f[i]? = some b ∧ w <+: f.drop (i + 1) := by
  by_cases h : i < f.length
  · rw [List.drop_eq_getElem_cons h, List.cons_prefix_cons, List.getElem?_eq_getElem h, Option.some.injEq, eq_comm]
  · simp [List.drop_eq_nil_of_le (Nat.le_of_not_lt h), Nat.le_of_not_lt h]

theorem append_prefix_drop {u w : Bytes} :
    u ++ w <+: f.drop i ↔ u <+: f.drop i ∧ w <+: f.drop (i + u.length) := by
  induction u generalizing i with
  | nil => simp
  | cons b u ih =>
    rw [List.cons_append, cons_prefix_drop, cons_prefix_drop, ih, and_assoc, List.length_cons,
      Nat.add_right_comm, Nat.add_assoc]

/-- `MemRead` of at least one byte gives the window of that size that stands at the index (R46). -/
theorem memRead_eq_some_iff_prefix (hn : 0 < n) {w : Bytes} :
    memRead f i n = some w ↔ w.length = n ∧ w <+: f.drop i := by
  rw [List.prefix_iff_eq_take]
  constructor
  · intro h
    obtain rfl := memRead_length h
    exact ⟨rfl, (memRead_eq_some.1 h).2.symm⟩
  · rintro ⟨rfl, hw⟩
    have hlen := congrArg List.length hw
    rw [List.length_take, List.length_drop] at hlen
    exact memRead_eq_some.2 ⟨by omega, hw.symm⟩

theorem memRead_one : memRead f i 1 = f[i]?.map fun b => [b] := by
  by_cases h : i < f.length
  · rw [memRead, if_pos (Nat.succ_le_of_lt h), List.drop_eq_getElem_cons h, List.getElem?_eq_getElem h]
    rfl
  · simp [memRead, h]

theorem memRead_succ (hn : 0 < n) :
    memRead f i (n + 1) = f[i]?.bind fun b => (memRead f (i + 1) n).map fun w => b :: w := by
  by_cases h : i < f.length
  · simp only [memRead, List.drop_eq_getElem_cons h, List.take_succ_cons, List.getElem?_eq_getElem h,
      Option.bind_some, Nat.add_right_comm i 1 n, Nat.add_assoc]
    split <;> rfl
  · simp [memRead, h, show ¬ i + (n + 1) ≤ f.length by omega]

theorem win2At_eq_some {w : Win2} : win2At f i = some w ↔ f[i]? = some w.b0 ∧ f[i + 1]? = some w.b1 := by
  cases w
  simp [win2At, memRead_succ, memRead_one, Option.bind_eq_some_iff, asWin2]

theorem win3At_eq_some {w : Win3} :
    win3At f i = some w ↔ f[i]? = some w.b0 ∧ f[i + 1]? = some w.b1 ∧ f[i + 2]? = some w.b2 := by
  cases w
  simp [win3At, memRead_succ, memRead_one, Option.bind_eq_some_iff, asWin3]

theorem win4At_eq_some {w : Win4} :
    win4At f i = some w ↔
      f[i]? = some w.b0 ∧ f[i + 1]? = some w.b1 ∧ f[i + 2]? = some w.b2 ∧ f[i + 3]? = some w.b3 := by
  cases w
  simp [win4At, memRead_succ, memRead_one, Option.bind_eq_some_iff, asWin4]

end Sys2Proof.Machine

namespace Sys2Proof

open Sys2Proof.Machine

/-- The fields of a frame kind are read from a frame exactly when its payload stands there from index 2 on (R67). -/
theorem parse_eq_some {k : Kind} {f : Bytes} {i : Instr} (hk : kindOf i = some k) (hw : i.wf = true) :
    parse k f = some i ↔ payload i <+: f.drop 2 := by
  cases i <;> cases hk <;> simp only [Instr.wf, beq_iff_eq] at hw <;>
    simp [parse, payload, hw, Option.bind_eq_some_iff, byteAt_eq_getElem?, win2At_eq_some, win3At_eq_some,
      win4At_eq_some, memRead_eq_some_iff_prefix, bytes2, bytes3, bytes4, cons_prefix_drop, append_prefix_drop,
      and_assoc]

theorem length_of_classify {f : Bytes} {k : Key} (h : classify f = some k) : f.length = k.length := by
  obtain ⟨c, sc, rest, rfl, rfl⟩ := classify_eq_some.1 h
  rfl

/-- The payload fills the length of its row, beside category, subcommand and checksum (R60, R67). -/
theorem payload_length {k : Kind} {i : Instr} (hk : kindOf i = some k) (hw : i.wf = true) :
    (payload i).length + 3 = (keyOf k).length := by
  cases i <;> cases hk <;> simp_all [Instr.wf, payload, keyOf]

theorem encode_eq_append {k : Kind} {i : Instr} (hk : kindOf i = some k) :
    encode i = some (append ((keyOf k).category :: (keyOf k).subcommand :: payload i)) := by
  rw [encode, hk]
  rfl

/-- Any valid frame of a row's key has the body `[category][subcommand]` and the payload that stands from index 2 on. -/
theorem eq_append_payload {k : Kind} {f : Bytes} {i : Instr} (hv : verify f = .verdict true)
    (hc : classify f = some (keyOf k)) (hp : payload i <+: f.drop 2)
    (hl : (payload i).length + 3 = (keyOf k).length) :
    f = append ((keyOf k).category :: (keyOf k).subcommand :: payload i) := by
  obtain ⟨body, hb, rfl⟩ := verify_true_iff.1 hv
  match body, hb with
  | c :: sc :: rest, _ =>
    have hkey : ⟨c, sc, (rest ++ [sum8 (c :: sc :: rest)]).length + 2⟩ = keyOf k := Option.some.inj hc
    rw [← hkey] at hl ⊢
    have hlen : (payload i).length = rest.length := by simpa using hl
    have hrest : payload i = rest := by simpa [List.prefix_iff_eq_take, hlen] using hp
    rw [hrest]
    rfl

end Sys2Proof

namespace Sys2Proof.Claims

open Sys2Proof.Machine

/-- Settles O50: the encoding passes `VERIFY`, its key selects the row, and the fields read back are those of its
payload. -/
theorem decodeOfEncodeIsIdentity : Obligations.DecodeOfEncodeIsIdentity := by
  intro i k ch v hw hk hch hv
  obtain ⟨f, he, hc, hver⟩ : ∃ f, encode i = some f ∧ classify f = some (keyOf k) ∧ verify f = .verdict true := by
    simpa [hk] using Laws.FrameShape.of_payload hk (payload_length hk) hw
  have hparse : parse k f = some i := by
    rw [encode_eq_append hk] at he
    cases he
    exact (parse_eq_some hk hw).2 (List.prefix_append _ _)
  exact ⟨f, he, by simp [decode, hver, decodeVerified, hc, lookup_eq_some.2 ⟨rfl, hch, hv⟩, hparse]⟩

/-- Settles O51: what decodes is a valid frame of its row's key that holds the payload of the kind read from it. -/
theorem encodeOfDecodeIsIdentity : Obligations.EncodeOfDecodeIsIdentity := by
  intro f ch v i h
  rcases decode_cases ch v f with ⟨-, hd⟩ | ⟨-, hd⟩ | ⟨-, -, -, -, hd⟩ | ⟨hv, k, j, hc, -, hp, hk, hw, hd⟩ <;>
    cases hd.symm.trans h
  refine ⟨hw, by rw [hk]; rfl, ?_⟩
  rw [encode_eq_append hk, ← eq_append_payload hv hc ((parse_eq_some hk hw).1 hp) (payload_length hk hw)]

end Sys2Proof.Claims
end

section
/-! SUPPORT. The decoder types on windows of their size (30_encoding.md R66), the lanes of their values (R73), and the
encodings of the records (R74 to R76). -/

namespace Sys2Proof.Machine

section
variable (b0 b1 b2 b3 : Byte)

@[simp] theorem u8_eq : u8 b0 = b0 := rfl
@[simp] theorem version_eq (w : Win3) : version w = w := rfl

@[simp] theorem decodeWindow_u8 : decodeWindow .u8 [b0] = some (.byte b0) := rfl
@[simp] theorem decodeWindow_rat255 : decodeWindow .rat255 [b0] = some (.scaled (ratio255 b0)) := rfl
@[simp] theorem decodeWindow_u8x10 : decodeWindow .u8x10 [b0] = some (.uint (x10 b0.toNat)) := rfl
@[simp] theorem decodeWindow_boolz : decodeWindow .boolz [b0] = some (.bool (boolZ b0)) := rfl
@[simp] theorem decodeWindow_boolnz : decodeWindow .boolnz [b0] = some (.bool (boolNZ b0)) := rfl
@[simp] theorem decodeWindow_u16le : decodeWindow .u16le [b0, b1] = some (.uint (uintLE [b0, b1])) := rfl
@[simp] theorem decodeWindow_u16x10 : decodeWindow .u16x10 [b0, b1] = some (.uint (x10 (uintLE [b0, b1]))) := rfl
@[simp] theorem decodeWindow_s16le : decodeWindow .s16le [b0, b1] = some (.sint (intLE16 ⟨b0, b1⟩)) := rfl
@[simp] theorem decodeWindow_accel : decodeWindow .accel [b0, b1] = some (.scaled (scaledAccel ⟨b0, b1⟩)) := rfl
@[simp] theorem decodeWindow_temp : decodeWindow .temp [b0, b1] = some (.scaled (scaledTemp ⟨b0, b1⟩)) := rfl
@[simp] theorem decodeWindow_ver3 : decodeWindow .ver3 [b0, b1, b2] = some (.version ⟨b0, b1, b2⟩) := rfl
@[simp] theorem decodeWindow_u32le :
    decodeWindow .u32le [b0, b1, b2, b3] = some (.uint (uintLE [b0, b1, b2, b3])) := rfl

/-- Bytes written most significant first, as a number. -/
theorem toNat_append_byte {n : Nat} (hi : BitVec n) (lo : Byte) : (hi ++ lo).toNat = lo.toNat + 256 * hi.toNat := by
  rw [BitVec.toNat_append, ← Nat.shiftLeft_add_eq_or_of_lt lo.isLt, Nat.shiftLeft_eq]
  omega

theorem uintLE_eq_toNat_pair : uintLE [b0, b1] = (b1 ++ b0).toNat := by
  simp only [uintLE, toNat_append_byte]
  omega

theorem uintLE_eq_toNat_quad : uintLE [b0, b1, b2, b3] = (b3 ++ b2 ++ b1 ++ b0).toNat := by
  simp only [uintLE, toNat_append_byte]
  omega

/-- `INTLE16` reads the two bytes, most significant first, as a two's complement number (R132). -/
theorem intLE16_eq_toInt : intLE16 ⟨b0, b1⟩ = (b1 ++ b0).toInt := by
  rw [Claims.intLE16_eq_bmod, bytes2, uintLE_eq_toNat_pair, BitVec.toInt_eq_toNat_bmod]

/-! ### Lanes -/

theorem laneOf_ratio255 : laneOf (.scaled (ratio255 b0)) = b0.zeroExtend 32 := by
  simp [laneOf, ratio255]

theorem laneOf_uintLE_pair : laneOf (.uint (uintLE [b0, b1])) = (b1 ++ b0).zeroExtend 32 := by
  simp [laneOf, uintLE_eq_toNat_pair]

theorem laneOf_uintLE_quad : laneOf (.uint (uintLE [b0, b1, b2, b3])) = b3 ++ b2 ++ b1 ++ b0 := by
  simp [laneOf, uintLE_eq_toNat_quad]

theorem laneOf_intLE16 : laneOf (.sint (intLE16 ⟨b0, b1⟩)) = (b1 ++ b0).signExtend 32 := by
  rw [intLE16_eq_toInt]
  rfl

/-- A lane holds a product of a 16-bit number by ten whole. -/
theorem laneOf_x10_toNat {u : Nat} (h : u ≤ 65535) : (laneOf (.uint (x10 u))).toNat = 10 * u :=
  Nat.mod_eq_of_lt (by simp only [x10]; omega)

theorem laneOf_boolZ : laneOf (.bool (boolZ b0)) = if b0 = 0 then 1 else 0 := by
  simp [laneOf, boolZ]

theorem laneOf_boolNZ : laneOf (.bool (boolNZ b0)) = if b0 = 0 then 0 else 1 := by
  simp [laneOf, boolNZ]

end

/-! ### Records -/

theorem Event.fields_length_le (e : Event) : e.fields.length ≤ 4 := by
  cases e <;> simp [Event.fields]

theorem Event.evid_range (e : Event) : e.evid ≠ 0 ∧ e.evid.toNat ≤ 21 := by
  cases e <;> simp [Event.evid]

/-- Codes 0 and 3 are never emitted (R74). -/
theorem errCode_ne (code : ErrCode) : errCode code ≠ 0 ∧ errCode code ≠ 3 := by
  cases code <;> decide

theorem saturated_length (n : Nat) : (BitVec.ofNat 8 (min n 255)).toNat = min n 255 :=
  Nat.mod_eq_of_lt (by omega)

end Sys2Proof.Machine

namespace Sys2Proof.Claims

open Sys2Proof.Machine

/-- Settles O58: the lanes one decoder type at a time, and the heads of events and the port forms by their
definitions. -/
theorem lanesCarryExtendedBytes : Obligations.LanesCarryExtendedBytes := by
  refine ⟨fun b0 b1 b2 b3 => ?_, fun e => ⟨e.fields_length_le, rfl⟩, fun _ => ⟨rfl, rfl, rfl, rfl⟩,
    fun _ => ⟨rfl, rfl⟩, fun _ => rfl, fun _ _ _ _ => ⟨rfl, rfl, rfl, rfl⟩, fun _ _ _ => rfl,
    fun _ _ _ _ _ _ => ⟨rfl, rfl⟩, fun _ _ _ _ _ => ⟨rfl, rfl, rfl, rfl, rfl, rfl, rfl⟩, Event.evid_range,
    fun code _ n => ⟨rfl, rfl, rfl, rfl, saturated_length n, errCode_ne code⟩, fun _ => ⟨rfl, rfl⟩⟩
  have hsigned := congrArg some (laneOf_intLE16 b0 b1)
  have hpair := uintLE_bytes2_le ⟨b0, b1⟩
  exact ⟨rfl, congrArg some (laneOf_ratio255 b0), congrArg some (laneOf_uintLE_pair b0 b1),
    congrArg some (laneOf_uintLE_quad b0 b1 b2 b3), hsigned, hsigned, hsigned,
    congrArg some (laneOf_x10_toNat (by omega)),
    congrArg some (uintLE_pair b0 b1 ▸ laneOf_x10_toNat hpair),
    congrArg some (laneOf_boolZ b0), congrArg some (laneOf_boolNZ b0), rfl⟩

end Sys2Proof.Claims
end

section
/-! SUPPORT. A received frame against the field table (30_encoding.md R67): the events of a frame kind are the table's
rows applied to the frame, the state it leaves is a function of those events, and so bytes outside the table's fields
do not matter (R68). -/

namespace Sys2Proof.Machine

/-- Reads of frames of one length agree where the bytes do. -/
theorem memRead_congr {f g : Bytes} {i n : Nat} (hl : f.length = g.length)
    (h : ∀ j, i ≤ j ∧ j < i + n → f[j]? = g[j]?) : memRead f i n = memRead g i n := by
  have hw : (f.drop i).take n = (g.drop i).take n := by
    refine List.ext_getElem? fun j => ?_
    rw [List.getElem?_take, List.getElem?_take, List.getElem?_drop, List.getElem?_drop]
    split
    · exact h _ (by omega)
    · rfl
  rw [memRead, memRead, hl, hw]

/-! ### The state a frame kind leaves -/

/-- The state after a frame kind's rule has emitted its events: a detection signal, which comes last, goes with the
write of its block type to `BTYPE` (R161). -/
def State.deliver (s : State) (es : List Event) : State :=
  match es.getLast? with
  | some (.blockTypeDetected t) => (s.identify t).emit es
  | _ => s.emit es

theorem State.deliver_ev (s : State) (es : List Event) : (s.deliver es).ev = s.ev ++ es := by
  unfold State.deliver
  split <;> rfl

/-- One event that is no detection signal is delivered by its emission alone. -/
theorem State.deliver_one (s : State) {e : Event} (he : e.isDetection = false) : s.deliver [e] = s.emit [e] := by
  unfold State.deliver
  split
  case h_1 t h =>
    cases Option.some.inj h
    cases he
  case h_2 => rfl

/-- `ID`: with a null `BTYPE` the detection signal follows the four events (R161). -/
theorem exec_id_eq_deliver (t : Byte) (serial : Win4) (ver : Win3) (pad : Bytes) (battery : Byte) (s : State) :
    exec (.id t serial ver pad battery) s = .next (s.deliver
      ([.blockType t, .serialNumber (uintLE (bytes4 serial)), .version ver, .batteryLevel (x10 battery.toNat)] ++
        if s.btype = none then [.blockTypeDetected t] else [])) := by
  cases hb : s.btype with
  | none => simp [exec, execId, isNull, hb, State.deliver, State.emit, State.identify]
  | some b => simp [exec, execId, isNull, hb, State.deliver]

/-- The receive pipeline on a frame whose outcome is `decoded k` (R13, R160): it runs the frame kind whose payload the
frame holds. -/
theorem exec_of_decoded {s : State} {ch : Channel} {f : Bytes} {k : Kind}
    (h : opOutcome (.rx ch f) s = some (.decoded k)) :
    ∃ i, exec (portInstr (.rx ch f)) s = exec i s ∧ f.length = (keyOf k).length ∧ kindOf i = some k ∧ i.wf = true ∧
      payload i <+: f.drop 2 := by
  have ha : admits s.params f.length = true := by
    by_contra hn
    simp [opOutcome, hn] at h
  simp only [opOutcome, ha, if_true, rxOutcome] at h
  rw [exec_port_rx, rxFrame, whenAdmitted_pos ha, receive]
  rcases decode_cases ch s.active f with
    ⟨-, hd⟩ | ⟨-, hd⟩ | ⟨-, -, -, -, hd⟩ | ⟨-, k', i, hc, -, hp, hk, hw, hd⟩ <;> simp only [hd] at h ⊢
  · cases h
  · cases h
  · cases h
  · obtain rfl : k' = k := by simpa [hk] using h
    exact ⟨i, (runFrame_spec hk s).1, length_of_classify hc, hk, hw, (parse_eq_some hk hw).1 hp⟩

end Sys2Proof.Machine

namespace Sys2Proof.Claims

open Sys2Proof.Machine

/-! ### Events and the field table -/

/-- The name of an event record gives its constructor, the fields its values (R73). -/
theorem eventView_injective : Function.Injective eventView := by
  intro e e' h
  obtain ⟨hname, hfields⟩ := Prod.mk.inj h
  -- the names differ wherever the constructors do
  cases e <;> cases e' <;> simp only [Event.name, String.reduceEq] at hname
  all_goals simpa [Event.fields] using hfields

/-- The rows of the field table that a frame kind emits in a state (R67). -/
def rowsIn (s : State) (k : Kind) : List (String × List Field) :=
  layout s.params.orientBase k ++ (if k = .id ∧ s.btype = none then [detectionLayout] else [])

/-- A frame kind with one event, beside what the table makes of the frame. -/
theorem exists_delivered_one {i : Instr} {s : State} {e : Event} {view : List (String × List (String × Option Value))}
    (hx : exec i s = .next (s.emit [e])) (he : e.isDetection = false) (hv : [e].map eventView = view) :
    ∃ es, exec i s = .next (s.deliver es) ∧ es.map eventView = view :=
  ⟨[e], by rw [hx, s.deliver_one he], hv⟩

/-- A frame kind delivers the events that the table's rows make of any frame that holds its payload (R67). -/
theorem exec_delivers_rows {f : Bytes} {k : Kind} {i : Instr} (hk : kindOf i = some k) (hw : i.wf = true)
    (hp : payload i <+: f.drop 2) (s : State) :
    ∃ es, exec i s = .next (s.deliver es) ∧ es.map eventView = (rowsIn s k).map (tableEvent f) := by
  -- `hp` becomes the operand byte at each index; the fields of the table are then reads of those indices
  cases i <;> cases hk <;> simp only [Instr.wf, beq_iff_eq] at hw <;>
    simp only [payload, bytes2, bytes3, bytes4, List.cons_append, List.nil_append, cons_prefix_drop,
      append_prefix_drop, hw] at hp
  case id t serial ver pad battery =>
    refine ⟨_, exec_id_eq_deliver .., ?_⟩
    by_cases hb : s.btype = none <;>
      simp [rowsIn, hb, layout, detectionLayout, tableEvent, decodeField, memRead_one, memRead_succ, hp,
        eventView, Event.name, Event.fields, bytes4]
  case orient =>
    cases hb : s.params.orientBase <;>
      refine exists_delivered_one (by simp only [exec, execOrient, hb]; rfl) rfl ?_ <;>
      simp [rowsIn, hb, layout, xyzBase, tableEvent, decodeField, memRead_one, memRead_succ, hp, eventView,
        Event.name, Event.fields]
  all_goals
    refine exists_delivered_one rfl rfl ?_
    simp [rowsIn, layout, tableEvent, decodeField, memRead_one, memRead_succ, hp, eventView, Event.name, Event.fields,
      bytes2]

/-- The detection signal reads no field of its own (R67). -/
theorem rowsIn_fields {s : State} {k : Kind} {row : String × List Field} (h : row ∈ rowsIn s k) :
    ∃ row' ∈ layout s.params.orientBase k, row.2 = row'.2 := by
  rcases List.mem_append.1 h with h | h
  · exact ⟨row, h, rfl⟩
  · split at h
    case isTrue hid =>
      obtain rfl := List.mem_singleton.1 h
      exact ⟨("block_type", detectionLayout.2), by rw [hid.1]; exact List.mem_cons_self, rfl⟩
    case isFalse => cases h

/-- The table makes the same of two frames of one length that agree on the indices it names (R68). -/
theorem map_tableEvent_congr {s : State} {k : Kind} {f g : Bytes} (hl : f.length = g.length)
    (h : ∀ n, readIndex s.params.orientBase k n = true → f[n]? = g[n]?) :
    (rowsIn s k).map (tableEvent f) = (rowsIn s k).map (tableEvent g) := by
  refine List.map_congr_left fun row hrow => congrArg (Prod.mk row.1) (List.map_congr_left fun fd hfd => ?_)
  obtain ⟨row', hrow', hfields⟩ := rowsIn_fields hrow
  have hread : memRead f fd.off fd.len = memRead g fd.off fd.len :=
    memRead_congr hl fun n hn => h n <| List.any_eq_true.2
      ⟨row', hrow', List.any_eq_true.2 ⟨fd, hfields ▸ hfd, decide_eq_true hn⟩⟩
  rw [decodeField, decodeField, hread]

/-- Settles O44: the frame holds the payload of the kind that runs, and that kind delivers the table's rows. -/
theorem eventsFollowFieldTable : Obligations.EventsFollowFieldTable := by
  intro s ch f k h
  obtain ⟨i, hx, -, hk, hw, hp⟩ := exec_of_decoded h
  obtain ⟨es, he, hview⟩ := exec_delivers_rows hk hw hp s
  exact ⟨s.deliver es, es, hx.trans he, s.deliver_ev es, hview⟩

/-- Settles O45: the table makes the same events of both frames, and the events fix the state that is left. -/
theorem unnamedPayloadBytesAreIgnored : Obligations.UnnamedPayloadBytesAreIgnored := by
  intro s ch f g k hf hg h
  obtain ⟨i, hxf, hlf, hkf, hwf, hpf⟩ := exec_of_decoded hf
  obtain ⟨j, hxg, hlg, hkg, hwg, hpg⟩ := exec_of_decoded hg
  obtain ⟨es, hef, hvf⟩ := exec_delivers_rows hkf hwf hpf s
  obtain ⟨es', heg, hvg⟩ := exec_delivers_rows hkg hwg hpg s
  have hes : es = es' := eventView_injective.list_map <|
    hvf.trans ((map_tableEvent_congr (hlf.trans hlg.symm) h).trans hvg.symm)
  rw [hxf, hxg, hef, heg, hes]

end Sys2Proof.Claims
end

section
/-! SUPPORT. `SUM8` as the sum in the ring of bytes (40_checksum.md R90), so that the library's facts about sums of lists
hold of it; the checksum condition in that ring (R92) and the byte-serial registers (R94). -/

namespace Sys2Proof.Machine

/-! ### The sum of bytes as bytes -/

/-- The sum modulo 256 is the sum of the bytes with 8-bit addition (R90). -/
theorem sum8_eq_sum (bs : Bytes) : sum8 bs = bs.sum := by
  induction bs with
  | nil => rfl
  | cons b bs ih =>
    rw [List.sum_cons, ← ih, ← BitVec.toNat_inj, BitVec.toNat_add, sum8_toNat, sum8_toNat, byteSum_cons]
    omega

theorem sum8_eq_foldl (bs : Bytes) : sum8 bs = bs.foldl (fun acc v => acc + v) 0 := by
  rw [sum8_eq_sum, List.sum_eq_foldl]

theorem sum8_perm {as bs : Bytes} (h : as.Perm bs) : sum8 as = sum8 bs := by
  rw [sum8_eq_sum, sum8_eq_sum, h.sum_eq]

@[simp] theorem sum8_concat (b : Bytes) (c : Byte) : sum8 (b ++ [c]) = sum8 b + c := by
  simp [sum8_eq_sum]

/-- Replacing one byte moves the sum by the difference of the two bytes. -/
theorem sum8_set {b : Bytes} {n : Nat} {old : Byte} (h : b[n]? = some old) (new : Byte) :
    sum8 (b.set n new) = sum8 b + (-old + new) := by
  obtain ⟨hn, rfl⟩ := List.getElem?_eq_some_iff.1 h
  rw [sum8_eq_sum, sum8_eq_sum, List.sum_set', dif_pos hn]

/-! ### The checksum condition on bytes -/

/-- `VERIFY` compares the checksum byte with `SUM8` of the body (R92 b). -/
theorem verify_concat_sum8 {b : Bytes} {c : Byte} (h : 2 ≤ b.length) :
    verify (b ++ [c]) = .verdict (decide (sum8 b = c)) := by
  simp only [verify_concat h, sum8_eq_iff]

/-- A checksum byte that is not the sum of the body makes the frame invalid. -/
theorem verify_concat_eq_false {b : Bytes} {c : Byte} (h : 2 ≤ b.length) (hc : sum8 b ≠ c) :
    verify (b ++ [c]) = .verdict false := by
  rw [verify_concat_sum8 h, decide_eq_false hc]

theorem verify_concat_eq_true_iff {b : Bytes} {c : Byte} (h : 2 ≤ b.length) :
    verify (b ++ [c]) = .verdict true ↔ sum8 b = c := by
  simp [verify_concat_sum8 h]

/-- `VERIFY` with 8-bit arithmetic: the sum of all bytes, less the last byte, is the last byte (R92 c). -/
theorem verify_of_three_le {f : Bytes} (h : 3 ≤ f.length) :
    verify f = .verdict (sum8 f - lastByte f == lastByte f) := by
  obtain ⟨b, c, rfl, hb⟩ := exists_body h
  rw [verify_concat_sum8 hb, sum8_concat, lastByte_concat, add_sub_cancel_right, Bool.beq_eq_decide_eq]

/-! ### The byte-serial registers (R94) -/

/-- The registers after any bytes, from any registers whose counter is in range. -/
theorem foldl_streamByte {cntMax : Nat} (f : Bytes) {r : StreamRegs} (hr : r.cnt ≤ cntMax) :
    f.foldl (streamByte cntMax) r =
      ⟨r.acc + sum8 f, f.getLast?.getD r.last, min (r.cnt + f.length) cntMax⟩ := by
  induction f using List.reverseRecOn with
  | nil => simp [sum8_eq_sum, hr]
  | append_singleton b c ih =>
    have hcnt : min (min (r.cnt + b.length) cntMax + 1) cntMax = min (r.cnt + (b.length + 1)) cntMax := by omega
    simp [ih, streamByte, hcnt, add_assoc]

/-- After a frame the registers hold its sum, its last byte and its saturated length. -/
theorem streamFrame_eq (cntMax : Nat) (f : Bytes) :
    streamFrame cntMax f = ⟨sum8 f, lastByte f, min f.length cntMax⟩ := by
  rw [streamFrame, foldl_streamByte f (Nat.zero_le cntMax)]
  simp [streamStart, lastByte]

end Sys2Proof.Machine

namespace Sys2Proof.Claims

open Sys2Proof.Machine

/-! ### Checksum Codec -/

/-- Settles O1: `SUM8` is a sum in the ring of bytes, which no order of the bytes changes. -/
theorem sum8IsSumModulo256 : Obligations.Sum8IsSumModulo256 := fun bs _ =>
  ⟨⟨sum8 bs, rfl, sum8_toNat bs, sum8_eq_foldl bs⟩, fun _ h => (sum8_perm h).symm⟩

/-- Settles O2: from 3 bytes up, the formula is `VERIFY` with its length test decided. -/
theorem verifyComparesSumWithLastByte : Obligations.VerifyComparesSumWithLastByte := by
  refine fun f s => ⟨rfl, verify_short, ?_⟩
  rintro body c rfl h
  rw [verify, if_neg (Nat.not_lt.2 h), lastByte_concat, Bool.beq_eq_decide_eq, byteSum]

/-- Settles O3: each form is compared with the form (b), `SUM8` of the body is the last byte. -/
theorem checksumFormsAgree : Obligations.ChecksumFormsAgree := by
  intro body c h
  have hsum : ((body ++ [c]).map BitVec.toNat).sum = byteSum body + c.toNat := by simp [byteSum]
  have hc := c.isLt
  rw [verify_concat_eq_true_iff h, sum8_concat, add_sub_cancel_right, hsum, sum8_eq_iff]
  exact ⟨Iff.rfl, Iff.rfl, by omega⟩

/-- Settles O4: `whenAdmitted` is the whole of the length contract. -/
theorem appendAndEncodewriteAddChecksum : Obligations.AppendAndEncodewriteAddChecksum := fun _ _ =>
  ⟨fun h => ⟨whenAdmitted_pos h, whenAdmitted_pos h⟩, fun h => ⟨whenAdmitted_neg h, whenAdmitted_neg h⟩,
    whenAdmitted_pos, whenAdmitted_neg⟩

/-- Settles O5: a counter that saturates at 18 or more tells a frame below 3 bytes from a longer one. -/
theorem streamedChecksumEqualsCodec : Obligations.StreamedChecksumEqualsCodec := by
  intro cntMax f hmax
  refine ⟨?_, by rw [streamAppend, append, sum8_eq_foldl]⟩
  simp only [streamFrame_eq, streamVerdict]
  by_cases h : f.length < 3
  · rw [verify_short h, if_pos (by omega)]
  · rw [verify_of_three_le (by omega), if_neg (by omega)]

/-- Settles O6: a change in the body moves the sum away from the checksum byte, a change of the checksum byte moves it
away from the sum. -/
theorem singleByteChangeIsDetected : Obligations.SingleByteChangeIsDetected := by
  intro f n old new hv hold hne
  obtain ⟨b, hb, rfl⟩ := verify_true_iff.1 hv
  rcases Nat.lt_or_ge n b.length with hn | hn
  · rw [List.getElem?_append_left hn] at hold
    rw [List.set_append_left _ _ hn]
    refine verify_concat_eq_false (by simpa using hb) fun heq => hne ?_
    rw [sum8_set hold, add_eq_left] at heq
    exact (neg_add_eq_zero.1 heq).symm
  · rw [List.getElem?_append_right hn, List.getElem?_singleton, Option.ite_none_right_eq_some] at hold
    obtain ⟨hlast, ⟨⟩⟩ := hold
    rw [List.set_append_right _ _ hn, hlast]
    exact verify_concat_eq_false hb hne.symm

/-- Settles O7: the round trip is the form of a valid frame, `verify_true_iff`; the verdict sees the body's length and
sum only. -/
theorem appendedBodyVerifies : Obligations.AppendedBodyVerifies := by
  refine ⟨fun b hb => verify_true_iff.2 ⟨b, hb, rfl⟩, fun b hb => verify_short ?_, fun f hv => ?_, fun b b' c h => ?_⟩
  · rw [append_length]
    omega
  · obtain ⟨b, -, rfl⟩ := verify_true_iff.1 hv
    rw [List.dropLast_concat, append]
  · by_cases hb : 2 ≤ b.length
    · rw [verify_concat_sum8 hb, verify_concat_sum8 (h.length_eq ▸ hb), sum8_perm h]
    · have hlen : (b ++ [c]).length < 3 ∧ (b' ++ [c]).length < 3 := by simp [← h.length_eq]; omega
      rw [verify_short hlen.1, verify_short hlen.2]

end Sys2Proof.Claims
end

section
/-! SUPPORT. The Frame Classifier (41_classifier.md): `LOOKUP` as the search of the opcode table (30_encoding.md R78),
what `CLASSIFY` reads of a frame, and the valid frames for which no table has a row. -/

namespace Sys2Proof

open Sys2Proof.Machine

/-! ### The opcode table -/

theorem keyWord_toNat (k : Key) :
    (keyWord k).toNat = min k.length 255 + 256 * (k.subcommand.toNat + 256 * k.category.toNat) := by
  rw [keyWord, toNat_append_byte, toNat_append_byte, saturated_length]

/-- Below the saturated length 255 a key word stands for one key only (R62). -/
theorem keyWord_inj {k k' : Key} (hk' : k'.length < 255) : keyWord k = keyWord k' ↔ k = k' := by
  refine ⟨fun h => ?_, congrArg keyWord⟩
  obtain ⟨c, sc, n⟩ := k
  obtain ⟨c', sc', n'⟩ := k'
  have hw := congrArg BitVec.toNat h
  simp only [keyWord_toNat] at hw hk'
  have hsc := sc.isLt
  have hsc' := sc'.isLt
  rw [Key.mk.injEq, ← BitVec.toNat_inj, ← BitVec.toNat_inj]
  omega

theorem keyOf_length_lt (kind : Kind) : (keyOf kind).length < 255 := by
  cases kind <;> decide

/-- What a table row holds, by its kind: the word of the kind's key under a full mask, the kind's table, and the channel
qualifier of `BATT` alone (R64, R65, R78). -/
theorem frameRows_spec : ∀ r ∈ frameRows, r.word = keyWord (keyOf r.kind) ∧ r.mask = BitVec.allOnes 24 ∧
    r.variant = variantOf r.kind ∧ r.notifyOnly = decide (r.kind = .batt) := by
  decide

theorem exists_frameRow (kind : Kind) : ∃ r ∈ frameRows, r.kind = kind := by
  cases kind <;> decide

theorem rowActive_iff {r : Row} {v : Variant} : rowActive r v = true ↔ r.variant = none ∨ r.variant = some v := by
  unfold rowActive
  split <;> simp [*]

theorem rowAdmits_iff {r : Row} {ch : Channel} : rowAdmits r ch = true ↔ (r.notifyOnly = true → ch = .notify) := by
  cases h : r.notifyOnly <;> simp [rowAdmits, h]

/-- A row of the table selects a frame exactly when `LOOKUP` gives the row's kind. -/
theorem rowSelects_iff_lookup {r : Row} (hr : r ∈ frameRows) {k : Key} {ch : Channel} {v : Variant} :
    rowSelects r k ch v = true ↔ lookup k ch v = some r.kind := by
  obtain ⟨hword, hmask, hvariant, hnotify⟩ := frameRows_spec r hr
  simp only [rowSelects, Bool.and_eq_true, beq_iff_eq, rowAdmits_iff, rowActive_iff, hword, hmask, hvariant, hnotify,
    BitVec.and_allOnes, keyWord_inj (keyOf_length_lt r.kind), lookup_eq_some, decide_eq_true_eq, and_assoc]

/-- `LOOKUP` is the search of the table for the first selecting row: every selecting row has the kind `LOOKUP` gives,
and every kind has a row (R78, R112). -/
theorem find_frameRows_eq_lookup (k : Key) (ch : Channel) (v : Variant) :
    (frameRows.find? fun r => rowSelects r k ch v).map Row.kind = lookup k ch v := by
  cases hf : frameRows.find? fun r => rowSelects r k ch v with
  | some r =>
    have hsel := List.find?_some hf
    exact ((rowSelects_iff_lookup (List.mem_of_find?_eq_some hf)).1 hsel).symm
  | none =>
    refine (Option.eq_none_iff_forall_ne_some.2 fun kind hl => ?_).symm
    obtain ⟨r, hr, rfl⟩ := exists_frameRow kind
    exact List.find?_eq_none.1 hf r hr ((rowSelects_iff_lookup hr).2 hl)

/-! ### What `CLASSIFY` reads -/

theorem classify_eq_none {f : Bytes} : classify f = none ↔ f.length < 2 := by
  rw [← Option.not_isSome_iff_eq_none, classify_isSome, Nat.not_le]

/-- `CLASSIFY` reads the first two bytes and the length (R110, R111). -/
theorem classify_eq_map_take (f : Bytes) :
    classify f = (classify (f.take 2)).map fun k => { k with length := f.length } := by
  match f with
  | [] => rfl
  | [_] => rfl
  | _ :: _ :: _ => rfl

/-! ### Frames without a row -/

/-- The base table holds category 0x00 only (R64). -/
theorem category_keyOf_of_base {kind : Kind} (h : variantOf kind = none) : (keyOf kind).category = 0x00 := by
  revert h
  cases kind <;> decide

theorem variantOf_ne_some_none (kind : Kind) : variantOf kind ≠ some .none := by
  cases kind <;> decide

/-- A variant with no table of its own leaves every key outside category 0x00 without a row (R112). -/
theorem lookup_eq_none_of_no_table {k : Key} {ch : Channel} {v : Variant} (hk : k.category ≠ 0x00)
    (hv : ∀ kind, variantOf kind ≠ some v) : lookup k ch v = none := by
  refine Option.eq_none_iff_forall_ne_some.2 fun kind hl => ?_
  obtain ⟨rfl, -, hbase | htable⟩ := lookup_eq_some.1 hl
  · exact hk (category_keyOf_of_base hbase)
  · exact hv kind htable

end Sys2Proof

namespace Sys2Proof.Claims

open Sys2Proof.Machine

/-- A valid frame whose key has no row is ignored (R160). -/
theorem exec_received_of_lookup_none {s : State} {ch : Channel} {body : Bytes} (hb : 2 ≤ body.length)
    (ha : admits s.params (body.length + 1) = true)
    (hl : ∀ k, classify (body ++ [sum8 body]) = some k → lookup k ch s.active = none) :
    exec (received ch body) s = .next s := by
  have hv : verify (body ++ [sum8 body]) = .verdict true := verify_true_iff.2 ⟨body, hb, rfl⟩
  rw [received, exec_port_rx]
  rcases rxFrame_cases ch (body ++ [sum8 body]) s (by simpa using ha) with
    ⟨hlt, -⟩ | ⟨hf, -⟩ | ⟨-, _, -, -, he⟩ | ⟨-, kind, _, hc, hsome, -⟩
  · exact absurd (three_le_of_verdict hv) (Nat.not_le.2 hlt)
  · cases hv.symm.trans hf
  · exact he
  · cases (hl _ hc).symm.trans hsome

/-- While the active variant has no table, every valid category-0x01 frame is ignored. -/
theorem exec_received_category_one {s : State} (hv : ∀ kind, variantOf kind ≠ some s.active) {ch : Channel} {sc : Byte}
    {p : Bytes} (ha : admits s.params (p.length + 3) = true) : exec (received ch (0x01 :: sc :: p)) s = .next s := by
  refine exec_received_of_lookup_none (by simp) ha fun k hk => ?_
  cases hk
  exact lookup_eq_none_of_no_table (by simp) hv

/-- Settles O9: the result is `LOOKUP`, and that is the search of the table. -/
theorem lookupSelectsOpcodeTableRow : Obligations.LookupSelectsOpcodeTableRow := by
  intro k ch v s
  rw [find_frameRows_eq_lookup]
  rfl

/-- Settles O8: `CLASSIFY` is a function of the first two bytes and the length, and gives no key below two bytes. -/
theorem classifyReadsTwoBytesAndLength : Obligations.ClassifyReadsTwoBytesAndLength := by
  refine ⟨fun _ _ _ _ => rfl, fun f s h => ?_, fun f g hlen htake => ?_⟩
  · rw [exec, execClassify, classify_eq_none.2 h]
    rfl
  · rw [classify_eq_map_take f, htake, hlen, ← classify_eq_map_take]

/-- Settles O41: no table belongs to `NONE`, so while it is active a key outside category 0x00 has no row. -/
theorem variantIsActiveOnlyAfterIdentification : Obligations.VariantIsActiveOnlyAfterIdentification :=
  ⟨State.active_of_null, State.active_of_some, fun _ _ _ _ hnone ha =>
    exec_received_category_one (hnone ▸ variantOf_ne_some_none) ha⟩

end Sys2Proof.Claims
end

section
/-! SUPPORT. The Value Decoders (42_value_decoders.md): `UINTLE` as the sum of shifted bytes, the parts of an
acceleration, the two zero tests, multiplication by ten, decimal numerals, and windows of another size. -/

namespace Sys2Proof.Machine

/-! ### Integers -/

/-- Bytes placed from index `n` on sum to their `UINTLE`, moved up by `n` places (R131). -/
theorem sum_zipIdx_shiftLeft (w : Bytes) (n : Nat) :
    ((w.zipIdx n).map fun p => p.1.toNat <<< (8 * p.2)).sum = uintLE w <<< (8 * n) := by
  induction w generalizing n with
  | nil => simp [uintLE]
  | cons b w ih =>
    have hplace : 2 ^ (8 * (n + 1)) = 256 * 2 ^ (8 * n) := by rw [Nat.mul_succ, Nat.pow_add, Nat.mul_comm]
    rw [List.zipIdx_cons, List.map_cons, List.sum_cons, ih, uintLE]
    simp only [Nat.shiftLeft_eq, hplace]
    ring

theorem uintLE_eq_sum_zipIdx (w : Bytes) :
    uintLE w = (w.zipIdx.map fun p => p.1.toNat <<< (8 * p.2)).sum :=
  (sum_zipIdx_shiftLeft w 0).symm

theorem intLE16_eq_ite (b0 b1 : Byte) :
    intLE16 ⟨b0, b1⟩ = if b0.toNat + 256 * b1.toNat > 0x7FFF then ((b0.toNat + 256 * b1.toNat : Nat) : Int) - 0x10000
      else ((b0.toNat + 256 * b1.toNat : Nat) : Int) := by
  rw [← uintLE_pair]
  rfl

/-- `INTLE16` is the sign extension of the two bytes, most significant first, to a lane (R132). -/
theorem intLE16_eq_toInt_signExtend (b0 b1 : Byte) : intLE16 ⟨b0, b1⟩ = ((b1 ++ b0).signExtend 32).toInt := by
  rw [intLE16_eq_toInt, BitVec.toInt_signExtend_of_le (by omega)]

/-- The arithmetic shift is the division by 1024 that rounds toward minus infinity (R133). -/
theorem accelInt_eq_ediv (num : Int) : accelInt num = num / 1024 :=
  Int.shiftRight_eq_div_pow num 10

/-- `X10` by shifts (R137). -/
theorem x10_eq_shiftLeft_add (u : Nat) : x10 u = (u <<< 3) + (u <<< 1) := by
  simp only [x10, Nat.shiftLeft_eq]
  omega

/-! ### Zero tests -/

theorem boolZ_eq_decide (b : Byte) : boolZ b = decide (b.toNat = 0) :=
  decide_eq_decide.2 (BitVec.toNat_inj (y := 0)).symm

theorem boolNZ_eq_not_boolZ (b : Byte) : boolNZ b = !boolZ b := rfl

/-! ### Decimal numerals -/

/-- A positive number's numeral has no leading zero: its first digit is that of the number without its last digit, down
to a single digit (D11). -/
theorem head?_toDigits_ne_zero {n : Nat} (hn : 0 < n) : (Nat.toDigits 10 n).head? ≠ some '0' := by
  induction n using Nat.strongRecOn with
  | ind n ih =>
    rcases Nat.lt_or_ge n 10 with h | h
    · simp [Nat.toDigits_of_lt_base h, hn.ne']
    · rw [Nat.toDigits_of_base_le (by omega) h, List.head?_append_of_ne_nil _ Nat.toDigits_ne_nil]
      exact ih (n / 10) (by omega) (by omega)

/-- The numeral of a byte, read as a decimal number, is the byte (R136). -/
theorem foldl_decText (b : Byte) :
    (decText b).foldl (fun acc d => 10 * acc + (d.toNat - '0'.toNat)) 0 = b.toNat := by
  rw [← Nat.ofDigitChars_eq_foldl, decText, Nat.ofDigitChars_ten_toDigits]

theorem all_isDigit_decText (b : Byte) : (decText b).all Char.isDigit = true :=
  List.all_eq_true.2 fun _ hc => Nat.isDigit_of_mem_toDigits (by omega) (by omega) hc

theorem head?_decText_ne_none (b : Byte) : (decText b).head? ≠ none :=
  mt List.head?_eq_none_iff.1 Nat.toDigits_ne_nil

theorem head?_decText_ne_zero {b : Byte} (hb : b ≠ 0) : (decText b).head? ≠ some '0' :=
  head?_toDigits_ne_zero (Nat.pos_of_ne_zero (mt (BitVec.toNat_inj (y := 0)).1 hb))

/-! ### Windows of another size -/

theorem asByte_eq_none {w : Bytes} (h : w.length ≠ 1) : asByte w = none := by
  unfold asByte
  split
  · exact absurd rfl h
  · rfl

theorem asWin2_eq_none {w : Bytes} (h : w.length ≠ 2) : asWin2 w = none := by
  unfold asWin2
  split
  · exact absurd rfl h
  · rfl

theorem asWin3_eq_none {w : Bytes} (h : w.length ≠ 3) : asWin3 w = none := by
  unfold asWin3
  split
  · exact absurd rfl h
  · rfl

/-- A unit function whose operand is no window of its size is refused (R140, D20). -/
theorem yieldOr_map_of_eq_none {α : Type} {o : Option α} (h : o = none) (g : α → UnitResult) (s : State) :
    yieldOr (o.map g) s = .refused .badWindow := by
  rw [h]
  rfl

end Sys2Proof.Machine

namespace Sys2Proof.Claims

open Sys2Proof.Machine

/-! ### Value Decoders -/

/-- Settles O11: `UINTLE` is the sum, place by place, and `uintLE_lt` bounds it. -/
theorem uintleIsLittleEndianSum : Obligations.UintleIsLittleEndianSum := by
  intro w s
  rw [← uintLE_eq_sum_zipIdx]
  exact ⟨rfl, uintLE_lt w⟩

/-- Settles O12: the result is `INTLE16` of the pair, by its two readings and its range. -/
theorem intle16IsTwosComplement : Obligations.Intle16IsTwosComplement := fun b0 b1 _ =>
  ⟨intLE16 ⟨b0, b1⟩, rfl, intLE16_eq_ite b0 b1, intLE16_eq_toInt_signExtend b0 b1, intLE16_range ⟨b0, b1⟩⟩

/-- Settles O13: the numerators are `INTLE16` read as two's complement, and the parts of an acceleration are quotient
and remainder by 1024. -/
theorem fixedPointDecodersGiveNumerators : Obligations.FixedPointDecodersGiveNumerators := by
  intro b0 b1 s
  rw [← intLE16_eq_toInt]
  refine ⟨rfl, rfl, rfl, fun num => ?_⟩
  rw [accelInt_eq_ediv, accelFrac]
  omega

/-- Settles O14: `boolZ_eq_decide`, and the other test is its negation. -/
theorem byteDecodersPassOrTest : Obligations.ByteDecodersPassOrTest := by
  intro b s
  rw [decide_not, ← boolZ_eq_decide, ← boolNZ_eq_not_boolZ]
  exact ⟨rfl, rfl, rfl⟩

/-- Settles O15: the numeral of a byte is the library's list of decimal digits. -/
theorem versionKeepsThreeBytes : Obligations.VersionKeepsThreeBytes := by
  refine ⟨fun b0 b1 b2 s => ⟨rfl, by simp [versionText]⟩, fun b => ⟨foldl_decText b, all_isDigit_decText b,
    head?_decText_ne_none b, head?_decText_ne_zero, ?_⟩⟩
  rintro rfl
  exact Nat.toDigits_zero 10

/-- Settles O16: the result is `x10` of the operand, for the bounds of a byte and of a 16-bit value. -/
theorem x10IsNeverReduced : Obligations.X10IsNeverReduced :=
  ⟨fun b _ => ⟨rfl, x10_eq_shiftLeft_add b.toNat, by omega⟩, fun u _ => ⟨rfl, x10_eq_shiftLeft_add u.toNat, by omega⟩⟩

/-- Settles O17: a window of another size is no window of the decoder's size. -/
theorem wrongWindowsAreRefused : Obligations.WrongWindowsAreRefused := by
  refine fun w s => ⟨fun h1 => ?_, fun h2 => ?_, fun h3 => yieldOr_map_of_eq_none (asWin3_eq_none h3) _ s⟩
  · have hw := asByte_eq_none h1
    exact ⟨yieldOr_map_of_eq_none hw _ s, yieldOr_map_of_eq_none hw _ s, yieldOr_map_of_eq_none hw _ s,
      yieldOr_map_of_eq_none hw _ s⟩
  · have hw := asWin2_eq_none h2
    exact ⟨yieldOr_map_of_eq_none hw _ s, yieldOr_map_of_eq_none hw _ s, yieldOr_map_of_eq_none hw _ s⟩

end Sys2Proof.Claims
end

section
/-! SUPPORT. `RXFRAME` one check at a time (43_base_frames.md R160, 60_exceptions.md R236), what a frame kind emits in
any state (R161, R167, 44_variant_frames.md R190), and the kind that a key stands for. -/

namespace Sys2Proof

/-- The table row with a kind's key word has that kind (R78). -/
theorem find_frameRows_word (kind : Kind) :
    (frameRows.find? fun r => r.word == keyWord (keyOf kind)).map Row.kind = some kind := by
  cases kind <;> decide

theorem keyOf_injective : Function.Injective keyOf := by
  intro kind kind' h
  rw [← Option.some.injEq, ← find_frameRows_word kind, h, find_frameRows_word]

end Sys2Proof

namespace Sys2Proof.Machine

/-! ### The checks of `RXFRAME`, in their order -/

section
variable {s : State} {ch : Channel} {f : Bytes}

theorem admits_of_exec_rx {s' : State} (h : exec (portInstr (.rx ch f)) s = .next s') :
    admits s.params f.length = true :=
  (whenAdmitted_next ((exec_port_rx ch f s).symm.trans h)).1

theorem exec_rx_eq_receive (ha : admits s.params f.length = true) :
    exec (portInstr (.rx ch f)) s = receive ch f s :=
  (exec_port_rx ch f s).trans (whenAdmitted_pos ha)

theorem opOutcome_rx_eq_rxOutcome (ha : admits s.params f.length = true) :
    opOutcome (.rx ch f) s = rxOutcome ch s.active f :=
  if_pos ha

/-- The length test comes first (R231). -/
theorem rx_of_short (ha : admits s.params f.length = true) (h : f.length < 3) :
    exec (portInstr (.rx ch f)) s = .next (s.raise .lengthError ch f.length) ∧
      opOutcome (.rx ch f) s = some .lengthError := by
  have hd : decode ch s.active f = .error .lengthError := by simp [decode, verify_short h]
  rw [exec_rx_eq_receive ha, opOutcome_rx_eq_rxOutcome ha, receive, rxOutcome, hd]
  exact ⟨rfl, rfl⟩

/-- The checksum test comes second (R232). -/
theorem rx_of_verify_false (ha : admits s.params f.length = true) (h : verify f = .verdict false) :
    exec (portInstr (.rx ch f)) s = .next (s.raise .checksumError ch f.length) ∧
      opOutcome (.rx ch f) s = some .checksumError := by
  have hd : decode ch s.active f = .error .checksumError := by simp [decode, h]
  rw [exec_rx_eq_receive ha, opOutcome_rx_eq_rxOutcome ha, receive, rxOutcome, hd]
  exact ⟨rfl, rfl⟩

/-- A valid frame without a row is ignored (R160). -/
theorem rx_of_lookup_none {k : Key} (ha : admits s.params f.length = true) (hv : verify f = .verdict true)
    (hc : classify f = some k) (hl : lookup k ch s.active = none) :
    exec (portInstr (.rx ch f)) s = .next s ∧ opOutcome (.rx ch f) s = some .ignored := by
  have hd : decode ch s.active f = .error .unrecognised := by simp [decode, hv, decodeVerified, hc, hl]
  rw [exec_rx_eq_receive ha, opOutcome_rx_eq_rxOutcome ha, receive, rxOutcome, hd]
  exact ⟨rfl, rfl⟩

/-- A valid frame with a row runs the row's kind on the fields of the frame (R160). -/
theorem rx_of_lookup_some {k : Key} {kind : Kind} (ha : admits s.params f.length = true)
    (hv : verify f = .verdict true) (hc : classify f = some k) (hl : lookup k ch s.active = some kind) :
    ∃ i, kindOf i = some kind ∧ parse kind f = some i ∧ decode ch s.active f = .ok i ∧
      exec (portInstr (.rx ch f)) s = exec i s ∧ opOutcome (.rx ch f) s = some (.decoded kind) := by
  obtain ⟨rfl, -, -⟩ := lookup_eq_some.1 hl
  obtain ⟨i, hp, hk, -⟩ := parse_isSome (length_of_classify hc)
  have hd : decode ch s.active f = .ok i := by simp [decode, hv, decodeVerified, hc, hl, hp]
  rw [exec_rx_eq_receive ha, opOutcome_rx_eq_rxOutcome ha, receive, rxOutcome, hd]
  exact ⟨i, hk, hp, rfl, (runFrame_spec hk s).1, congrArg (Option.map OpOutcome.decoded) hk⟩

/-- The frame whose outcome is `decoded k` has the key of `k` (R13). -/
theorem classify_of_decoded {k : Kind} (h : opOutcome (.rx ch f) s = some (.decoded k)) :
    classify f = some (keyOf k) := by
  simp only [opOutcome, Option.ite_none_right_eq_some, rxOutcome] at h
  obtain ⟨-, h⟩ := h
  rcases decode_cases ch s.active f with
    ⟨-, hd⟩ | ⟨-, hd⟩ | ⟨-, -, -, -, hd⟩ | ⟨-, k', i, hc, -, -, hk, -, hd⟩ <;> simp only [hd] at h
  · cases h
  · cases h
  · cases h
  · obtain rfl : k' = k := by simpa [hk] using h
    exact hc

end

/-! ### What a frame kind emits -/

theorem eq_id_of_kindOf {i : Instr} (hk : kindOf i = some .id) :
    ∃ t serial ver pad battery, i = .id t serial ver pad battery := by
  cases i <;> cases hk
  exact ⟨_, _, _, _, _, rfl⟩

/-- A frame kind other than `ID` emits one event, never the detection signal, that belongs to the kind's table and
depends on the operands and `ORIENT_XYZ_BASE` only (R162, R163, R190). -/
theorem exec_emits_one {i : Instr} {k : Kind} (hk : kindOf i = some k) (hid : k ≠ .id) (base : OrientBase) :
    ∃ e : Event, e.isDetection = false ∧ e.fromVariant = (variantOf k).isSome ∧
      ∀ s : State, s.params.orientBase = base → exec i s = .next (s.emit [e]) := by
  cases i <;> cases hk
  case id => exact absurd rfl hid
  case orient =>
    cases base <;> exact ⟨_, rfl, rfl, fun s hb => by simp only [exec, execOrient, hb]; rfl⟩
  all_goals exact ⟨_, rfl, rfl, fun _ _ => rfl⟩

/-- The four events of an `ID` frame, in emission order (R161). -/
def idEvents (t : Byte) (serial : Win4) (ver : Win3) (battery : Byte) : List Event :=
  [.blockType t, .serialNumber (uintLE (bytes4 serial)), .version ver, .batteryLevel (x10 battery.toNat)]

/-- The detection signal of block type `t`, where a frame of kind `k` gives one: `ID` on a null `BTYPE` (R161). -/
def signalIn (s : State) (k : Kind) (t : Byte) : List Event :=
  if k = .id ∧ s.btype = none then [.blockTypeDetected t] else []

section
variable (s : State) (k : Kind) (t : Byte)

theorem isDetection_of_mem_signalIn : ∀ e ∈ signalIn s k t, e.isDetection = true := by
  unfold signalIn
  split <;> simp [Event.isDetection]

theorem signalIn_length_le : (signalIn s k t).length ≤ 1 := by
  unfold signalIn
  split <;> simp

theorem of_signalIn_ne_nil (h : signalIn s k t ≠ []) : k = .id ∧ s.btype = none := by
  by_contra hn
  exact h (if_neg hn)

end

section
variable (s : State) (t : Byte) (serial : Win4) (ver : Win3) (pad : Bytes) (battery : Byte)

theorem exec_id_of_null (hb : s.btype = none) :
    exec (.id t serial ver pad battery) s =
      .next ((s.identify t).emit (idEvents t serial ver battery ++ [.blockTypeDetected t])) := by
  simp [exec_id_eq_deliver, hb, State.deliver, idEvents]

theorem exec_id_of_identified (hb : s.btype ≠ none) :
    exec (.id t serial ver pad battery) s = .next (s.emit (idEvents t serial ver battery)) := by
  simp [exec_id_eq_deliver, hb, State.deliver, idEvents]

end

/-- The events of a frame kind, given its operands and `ORIENT_XYZ_BASE`: the same in every state, but for the detection
signal at their end (R167). -/
theorem exec_frame_events {i : Instr} {k : Kind} (hk : kindOf i = some k) (base : OrientBase) :
    ∃ (es : List Event) (t : Byte), (∀ e ∈ es, e.isDetection = false) ∧
      ∀ s s' : State, s.params.orientBase = base → exec i s = .next s' → s'.ev = s.ev ++ es ++ signalIn s k t := by
  by_cases hid : k = .id
  · subst hid
    obtain ⟨t, serial, ver, pad, battery, rfl⟩ := eq_id_of_kindOf hk
    refine ⟨idEvents t serial ver battery, t, by simp [idEvents, Event.isDetection], fun s s' _ h => ?_⟩
    by_cases hb : s.btype = none
    · cases (exec_id_of_null s t serial ver pad battery hb).symm.trans h
      simp [signalIn, hb]
    · cases (exec_id_of_identified s t serial ver pad battery hb).symm.trans h
      simp [signalIn, hb]
  · obtain ⟨e, he, -, hx⟩ := exec_emits_one hk hid base
    refine ⟨[e], 0, by simpa using he, fun s s' hb h => ?_⟩
    cases (hx s hb).symm.trans h
    simp [signalIn, hid]

end Sys2Proof.Machine

namespace Sys2Proof.Claims

open Sys2Proof.Machine

/-- Settles O23: each clause is one branch of the checks; the frame kind that runs encodes to the frame because it was
decoded from it. -/
theorem rxframeChecksInFixedOrder : Obligations.RxframeChecksInFixedOrder := by
  refine fun s ch f ha => ⟨rx_of_short ha, ?_, ?_⟩
  · rintro b c rfl hb hc
    exact rx_of_verify_false ha (verify_concat_eq_false hb hc)
  · intro c sc p hf
    have hv : verify f = .verdict true := verify_true_iff.2 ⟨c :: sc :: p, by simp, hf⟩
    have hc : classify f = some ⟨c, sc, f.length⟩ := by
      subst hf
      rfl
    refine ⟨rx_of_lookup_none ha hv hc, fun k hl => ?_⟩
    obtain ⟨i, hk, -, hd, hx, ho⟩ := rx_of_lookup_some ha hv hc hl
    obtain ⟨hw, -, he⟩ := encodeOfDecodeIsIdentity f ch s.active i hd
    obtain ⟨s', hs'⟩ : ∃ s', exec i s = .next s' := by
      rcases (runFrame_spec hk s).2 with ⟨_, h⟩ | ⟨_, _, -, -, h⟩ <;> exact ⟨_, h⟩
    exact ⟨i, s', hw, hk, he, hs', hx.trans hs', ho⟩

/-! ### The rows of the session table for a received frame (R164) -/

section
variable {s s' : State} {ch : Channel} {f : Bytes}

/-- A frame that fails `VERIFY` raises one error. -/
theorem rx_invalid (h : exec (portInstr (.rx ch f)) s = .next s') (hv : verify f ≠ .verdict true) :
    ∃ r, s' = { s with er := s.er ++ [r] } := by
  have ha := admits_of_exec_rx h
  cases hr : verify f with
  | lengthError =>
    obtain ⟨hx, -⟩ := rx_of_short (ch := ch) ha (verify_eq_lengthError.1 hr)
    cases hx.symm.trans h
    exact ⟨_, rfl⟩
  | verdict b =>
    cases b with
    | false =>
      obtain ⟨hx, -⟩ := rx_of_verify_false (ch := ch) ha hr
      cases hx.symm.trans h
      exact ⟨_, rfl⟩
    | true => exact absurd hr hv

/-- A valid `ID` frame runs `ID` with the frame's byte at index 2 as its block type. -/
theorem rx_id (h : exec (portInstr (.rx ch f)) s = .next s') (hv : verify f = .verdict true)
    (hc : classify f = some idKey) :
    ∃ t serial ver pad battery, f[2]? = some t ∧ exec (.id t serial ver pad battery) s = .next s' := by
  have ha := admits_of_exec_rx h
  have hl : lookup idKey ch s.active = some .id := lookup_eq_some.2 ⟨rfl, by simp, .inl rfl⟩
  obtain ⟨i, hk, hp, -, hx, -⟩ := rx_of_lookup_some ha hv hc hl
  obtain ⟨t, serial, ver, pad, battery, rfl⟩ := eq_id_of_kindOf hk
  exact ⟨t, serial, ver, pad, battery, getElem?_of_parse_id hp, hx.symm.trans h⟩

/-- Any other valid frame is ignored, or its kind emits one event. -/
theorem rx_valid_not_id (h : exec (portInstr (.rx ch f)) s = .next s') (hv : verify f = .verdict true)
    (hc : classify f ≠ some idKey) :
    ∃ es : List Event, s' = s.emit es ∧ es.length ≤ 1 ∧ ∀ e ∈ es, e.isDetection = false := by
  have ha := admits_of_exec_rx h
  have hlen : 2 ≤ f.length := Nat.le_of_succ_le (three_le_of_verdict hv)
  obtain ⟨key, hkey⟩ := Option.isSome_iff_exists.1 (classify_isSome.2 hlen)
  cases hl : lookup key ch s.active with
  | none =>
    obtain ⟨hx, -⟩ := rx_of_lookup_none ha hv hkey hl
    cases hx.symm.trans h
    exact ⟨[], by simp [State.emit], by simp, by simp⟩
  | some kind =>
    obtain ⟨i, hk, -, -, hx, -⟩ := rx_of_lookup_some ha hv hkey hl
    have hid : kind ≠ .id := by
      rintro rfl
      exact hc (hkey.trans (congrArg some (lookup_eq_some.1 hl).1))
    obtain ⟨e, he, -, hone⟩ := exec_emits_one hk hid s.params.orientBase
    cases (hx.trans (hone s rfl)).symm.trans h
    exact ⟨[e], rfl, by simp, by simpa using he⟩

end

/-- Settles O25: by the transaction, and for a received frame by its verdict and its key. -/
theorem sessionStateMachine : Obligations.SessionStateMachine := by
  intro s s' tr h
  cases tr with
  | disc => cases h; rfl
  | rst => cases h; rfl
  | tx b csEn ack =>
    obtain ⟨-, rfl⟩ := exec_txbody_eq_next.1 h
    exact ⟨_, rfl⟩
  | rx ch f =>
    refine ⟨rx_invalid h, fun hv hc => ?_, rx_valid_not_id h⟩
    obtain ⟨t, serial, ver, pad, battery, ht, hx⟩ := rx_id h hv hc
    refine ⟨t, idEvents t serial ver battery, ht, rfl, rfl, fun hb => ?_, fun hb => ?_⟩
    · cases (exec_id_of_null s t serial ver pad battery hb).symm.trans hx
      simp [State.emit, State.identify]
    · cases (exec_id_of_identified s t serial ver pad battery hb).symm.trans hx
      rfl

/-- Settles O43: the frame's key gives the kind and its bytes the operands, so one frame kind runs in both states. -/
theorem eventPayloadsDependOnFrameOnly : Obligations.EventPayloadsDependOnFrameOnly := by
  intro f ch₁ ch₂ s₁ s₂ s₁' s₂' k₁ k₂ hbase ho₁ ho₂ h₁ h₂
  obtain rfl : k₁ = k₂ := keyOf_injective <| Option.some.inj <|
    (classify_of_decoded ho₁).symm.trans (classify_of_decoded ho₂)
  obtain ⟨i, hx₁, -, hk, hw, hp⟩ := exec_of_decoded ho₁
  obtain ⟨j, hx₂, -, hkj, hwj, hpj⟩ := exec_of_decoded ho₂
  obtain rfl : i = j := Option.some.inj <|
    ((parse_eq_some hk hw).2 hp).symm.trans ((parse_eq_some hkj hwj).2 hpj)
  obtain ⟨es, t, hes, hev⟩ := exec_frame_events hk s₂.params.orientBase
  refine ⟨es, signalIn s₁ k₁ t, signalIn s₂ k₁ t, hev s₁ s₁' hbase (hx₁.symm.trans h₁),
    hev s₂ s₂' rfl (hx₂.symm.trans h₂), hes, ?_, signalIn_length_le .., signalIn_length_le ..,
    of_signalIn_ne_nil s₁ k₁ t, of_signalIn_ne_nil s₂ k₁ t⟩
  rw [List.forall_mem_append]
  exact ⟨isDetection_of_mem_signalIn s₁ k₁ t, isDetection_of_mem_signalIn s₂ k₁ t⟩

end Sys2Proof.Claims
end

section
/-! SUPPORT. The variant frames (44_variant_frames.md): `RXFRAME` of the frame that encodes an instruction is that
instruction, the values of the fields in plain arithmetic, and the keys that select alike under every variant. -/

namespace Sys2Proof

open Sys2Proof.Machine

/-! ### Keys of category 0x00 -/

/-- Category 0x00 holds the base table only (R64, R65). -/
theorem variantOf_of_category_zero {kind : Kind} (h : (keyOf kind).category = 0x00) : variantOf kind = none := by
  revert h
  cases kind <;> decide

/-- On category 0x00 a hit of `LOOKUP` does not depend on the active variant (R112). -/
theorem lookup_category_zero {k : Key} {ch : Channel} {v : Variant} {kind : Kind} (hk : k.category = 0x00) :
    lookup k ch v = some kind ↔ k = keyOf kind ∧ (kind = .batt → ch = .notify) := by
  rw [lookup_eq_some, ← and_assoc, and_iff_left_iff_imp]
  rintro ⟨rfl, -⟩
  exact .inl (variantOf_of_category_zero hk)

theorem variantOf_ne_some_led (kind : Kind) : variantOf kind ≠ some .led := by
  cases kind <;> decide

end Sys2Proof

namespace Sys2Proof.Machine

/-! ### Field values -/

theorem scaledAccel_eq_toInt (b0 b1 : Byte) : scaledAccel ⟨b0, b1⟩ = ⟨(b1 ++ b0).toInt, 1024⟩ := by
  rw [scaledAccel, intLE16_eq_toInt]

theorem scaledTemp_eq_toInt (b0 b1 : Byte) : scaledTemp ⟨b0, b1⟩ = ⟨(b1 ++ b0).toInt, 10⟩ := by
  rw [scaledTemp, intLE16_eq_toInt]

theorem boolNZ_eq_decide (b : Byte) : boolNZ b = decide (b.toNat ≠ 0) := by
  rw [boolNZ_eq_not_boolZ, boolZ_eq_decide, decide_not]

/-- A signed pair keeps its low byte modulo 256: the subtraction of 0x10000 does not reach it (D8). -/
theorem toInt_append_emod (hi lo : Byte) : (hi ++ lo).toInt % 256 = (lo.toNat : Int) := by
  have hlo := lo.isLt
  rw [← intLE16_eq_toInt, intLE16_eq_ite]
  split <;> omega

end Sys2Proof.Machine

namespace Sys2Proof.Claims

open Sys2Proof.Machine

/-! ### `RXFRAME` of an encoded instruction -/

section
variable {i : Instr} {k : Kind} {body : Bytes} {s : State}

/-- On a channel its row admits and with its table active, the frame that encodes a frame kind runs that kind (R160). -/
theorem exec_received_of_encode {ch : Channel} (hw : i.wf = true) (hk : kindOf i = some k)
    (hch : k = .batt → ch = .notify) (hv : variantOf k = none ∨ variantOf k = some s.active)
    (hf : encode i = some (append body)) (ha : admits s.params (body.length + 1) = true) :
    exec (received ch body) s = exec i s := by
  obtain ⟨f, he, hd⟩ := decodeOfEncodeIsIdentity i k ch s.active hw hk hch hv
  obtain rfl : append body = f := Option.some.inj (hf.symm.trans he)
  have hlen : (append body).length = body.length + 1 := List.length_append
  calc exec (received ch body) s
    _ = receive ch (append body) s := exec_rx_eq_receive (hlen ▸ ha)
    _ = runFrame i s := by rw [receive, hd]
    _ = exec i s := (runFrame_spec hk s).1

/-- A frame kind of a variant table emits through `RXFRAME`, on either channel, what it emits as an instruction
(R190). -/
theorem emitsOne_of_exec {v : Variant} {e : Event} (hw : i.wf = true) (hk : kindOf i = some k)
    (hv : variantOf k = some v) (hf : encode i = some (append body)) (hx : exec i s = .next (s.emit [e])) :
    EmitsOne v i body s e := by
  rintro rfl
  have hbatt : k ≠ .batt := by
    rintro rfl
    cases hv
  exact ⟨hx, fun ch ha => (exec_received_of_encode hw hk (absurd · hbatt) (.inr hv) hf ha).trans hx⟩

end

/-- Settles O42: a variant kind is not `ID`, and every other frame kind emits one event of its table. -/
theorem variantKindsEmitExactlyOneEvent : Obligations.VariantKindsEmitExactlyOneEvent := by
  intro i k v base hk hv
  have hid : k ≠ .id := by
    rintro rfl
    cases hv
  obtain ⟨e, -, hvariant, hx⟩ := exec_emits_one hk hid base
  exact ⟨e, by rw [hvariant, hv]; rfl, hx⟩

/-- Settles O28: the status is the raw byte. -/
theorem buttonFrameEmitsStatus : Obligations.ButtonFrameEmitsStatus := fun _ _ =>
  emitsOne_of_exec rfl rfl rfl rfl rfl

/-- Settles O29: a signed 16-bit number, most significant byte first, is what `SCALEDACCEL` takes over 1024. -/
theorem moveFramesEmitAcceleration : Obligations.MoveFramesEmitAcceleration := by
  intro s x0 x1 y0 y1 z0 z1 pad hpad
  have hw : (pad.length == 8) = true := beq_iff_eq.2 hpad
  simp only [← scaledAccel_eq_toInt]
  exact ⟨emitsOne_of_exec hw rfl rfl rfl rfl, emitsOne_of_exec hw rfl rfl rfl rfl,
    emitsOne_of_exec hw rfl rfl rfl rfl⟩

/-- Settles O30: by the value of `ORIENT_XYZ_BASE`, which the rule reads from the state. -/
theorem orientFrameFollowsXyzBase : Obligations.OrientFrameFollowsXyzBase := by
  intro s o b3 b4 b5 b6 b7 b8 pad hpad
  have hw : (pad.length == 7) = true := beq_iff_eq.2 hpad
  simp only [← scaledAccel_eq_toInt]
  refine ⟨fun hbase => ⟨emitsOne_of_exec hw rfl rfl rfl ?_, toInt_append_emod b3 o⟩,
    fun hbase => emitsOne_of_exec hw rfl rfl rfl ?_⟩
  all_goals simp only [exec, execOrient, hbase, u8_eq]

/-- Settles O31: the three arguments are the raw bytes. -/
theorem motionFrameEmitsThreeBytes : Obligations.MotionFrameEmitsThreeBytes := fun _ _ _ _ =>
  emitsOne_of_exec rfl rfl rfl rfl rfl

/-- Settles O32: `UINTLE` of a pair, and `X10` of it without reduction. -/
theorem brightFrameEmitsUnsigned : Obligations.BrightFrameEmitsUnsigned := by
  intro s r m b0 b1 p0 p1 pad hpad
  have hw : (pad.length == 4) = true := beq_iff_eq.2 hpad
  rw [← uintLE_pair, ← uintLE_pair]
  exact emitsOne_of_exec hw rfl rfl rfl rfl

/-- Settles O33: both numbers are `INTLE16`, the temperature over 10. -/
theorem temphumidFrameEmitsSigned : Obligations.TemphumidFrameEmitsSigned := by
  intro s r m t0 t1 h0 h1
  rw [← scaledTemp_eq_toInt, ← intLE16_eq_toInt]
  exact emitsOne_of_exec rfl rfl rfl rfl rfl

/-- Settles O34: pin and edge are the raw bytes. -/
theorem digchgFrameEmitsPinAndEdge : Obligations.DigchgFrameEmitsPinAndEdge := fun _ _ _ =>
  emitsOne_of_exec rfl rfl rfl rfl rfl

/-- Settles O35: the two unnamed bytes stand in the frame and not in the event. -/
theorem anachgFrameReadsIndexFive : Obligations.AnachgFrameReadsIndexFive := fun _ _ _ _ _ =>
  emitsOne_of_exec rfl rfl rfl rfl rfl

/-- Settles O36: the level is `BOOLZ`. -/
theorem diginFrameTestsForZero : Obligations.DiginFrameTestsForZero := by
  intro s r p l
  rw [← boolZ_eq_decide]
  exact emitsOne_of_exec rfl rfl rfl rfl rfl

/-- Settles O37: the level is `RATIO255` of one byte, the mode the raw byte after it. -/
theorem anainFrameEmitsLevelAndMode : Obligations.AnainFrameEmitsLevelAndMode := fun _ _ _ _ _ =>
  emitsOne_of_exec rfl rfl rfl rfl rfl

/-- Settles O38: both levels are `BOOLNZ`. -/
theorem outputFramesTestForNonzero : Obligations.OutputFramesTestForNonzero := by
  intro s r p l
  rw [← boolNZ_eq_decide]
  exact ⟨emitsOne_of_exec rfl rfl rfl rfl rfl, emitsOne_of_exec rfl rfl rfl rfl rfl⟩

/-- Settles O39: the level is `RATIO255`. -/
theorem pwmoutFrameEmitsRatio : Obligations.PwmoutFrameEmitsRatio := fun _ _ _ _ =>
  emitsOne_of_exec rfl rfl rfl rfl rfl

/-- Settles O40: no table belongs to `LED`, and base keys are hit or missed alike under every variant. -/
theorem ledHasNoInboundTable : Obligations.LedHasNoInboundTable := by
  refine ⟨fun s ch sc p hled ha => exec_received_category_one (hled ▸ variantOf_ne_some_led) ha, fun sc n ch v => ?_⟩
  exact Option.ext fun kind => (lookup_category_zero rfl).trans (lookup_category_zero rfl).symm

end Sys2Proof.Claims
end

section
/-! SUPPORT. The Command Encoder (45_command_encoder.md): what `TXBODY` does within `MAXLEN`, and the frame it writes
presented back to `RX`. -/

namespace Sys2Proof.Machine

variable {s : State} {b : Bytes} {csEn ack : Bool}

/-- Within `MAXLEN` a body on port `TX` is one write record, and the outcome is `Written` (R220, R221). -/
theorem tx_of_admits (ha : admits s.params (outLength b csEn) = true) :
    exec (portInstr (.tx b csEn ack)) s = .next (s.write (encodeWrite b csEn) ack) ∧
      opOutcome (.tx b csEn ack) s = some .written :=
  ⟨exec_txbody_eq_next.2 ⟨ha, rfl⟩, if_pos ha⟩

/-- A write leaves the active variant as it was: it touches neither `BTYPE` nor the parameters (R220). -/
theorem State.write_active (s : State) (b : Bytes) (ack : Bool) : (s.write b ack).active = s.active := rfl

end Sys2Proof.Machine

namespace Sys2Proof.Claims

open Sys2Proof.Machine

/-- Settles O46: the default transaction is the one with `cs_en`, and a write changes the stream `WR` alone. -/
theorem txbodyWritesOneRecord : Obligations.TxbodyWritesOneRecord := by
  refine fun s b ack => ⟨fun ha => ?_, tx_of_admits (csEn := false), rfl⟩
  obtain ⟨hexec, hout⟩ := tx_of_admits (csEn := true) ha
  exact ⟨hexec, hexec, hout, hout⟩

/-- Settles O48: the frame written is the body with its checksum appended, so from 2 bytes up it verifies (R95), and
the write has not changed what `RX` reads of the state. -/
theorem writtenFrameLoopsBack : Obligations.WrittenFrameLoopsBack := by
  intro s b ack ch ha
  have ha' : admits (s.write (append b) ack).params (append b).length = true := by simpa using ha
  refine ⟨s.write (append b) ack, append b, (tx_of_admits (csEn := true) ha).1, rfl, fun hb => ?_, ?_⟩
  · have hshort : (append b).length < 3 := by
      rw [append_length]
      omega
    exact (rx_of_short ha' hshort).2
  · rintro c sc p rfl
    have hv : verify (append (c :: sc :: p)) = .verdict true := verify_true_iff.2 ⟨_, by simp, rfl⟩
    have hc : classify (append (c :: sc :: p)) = some ⟨c, sc, (c :: sc :: p).length + 1⟩ := by
      simp [append, classify]
    rw [← s.write_active (append (c :: sc :: p)) ack]
    cases hl : lookup ⟨c, sc, (c :: sc :: p).length + 1⟩ ch (s.write (append (c :: sc :: p)) ack).active with
    | none => exact (rx_of_lookup_none ha' hv hc hl).2
    | some kind =>
      obtain ⟨_, -, -, -, -, hout⟩ := rx_of_lookup_some ha' hv hc hl
      exact hout

end Sys2Proof.Claims
end

section
/-! SUPPORT. Errors and the length contract (60_exceptions.md R230 to R243): a port operation answers a next state
exactly when its transaction is within the contract, and a frame that fails `VERIFY` answers one error record. -/

namespace Sys2Proof.Machine

/-! ### What stops an operation -/

/-- A frame kind's rule always answers a next state: it emits, and `ID` on a null `BTYPE` identifies as well. -/
theorem exists_next_of_kindOf {i : Instr} {k : Kind} (hk : kindOf i = some k) (s : State) :
    ∃ s', exec i s = .next s' := by
  rcases (runFrame_spec hk s).2 with ⟨_, h⟩ | ⟨_, _, -, -, h⟩
  · exact ⟨_, h⟩
  · exact ⟨_, h⟩

/-- Within `MAXLEN` every received frame is processed, an invalid one by its error record (R243). -/
theorem exists_next_of_admits_rx {s : State} {f : Bytes} (ch : Channel) (ha : admits s.params f.length = true) :
    ∃ s', rxFrame ch f s = .next s' := by
  rcases rxFrame_cases ch f s ha with ⟨-, h⟩ | ⟨-, h⟩ | ⟨-, _, -, -, h⟩ | ⟨-, _, i, -, -, -, hk, -, h⟩
  · exact ⟨_, h⟩
  · exact ⟨_, h⟩
  · exact ⟨_, h⟩
  · obtain ⟨s', hs'⟩ := exists_next_of_kindOf hk s
    exact ⟨s', h.trans hs'⟩

/-- Within the length contract every port operation answers a next state (R274). -/
theorem exists_next_of_inContract {s : State} {tr : Trans} (h : inContract s.params tr = true) :
    ∃ s', exec (portInstr tr) s = .next s' := by
  cases tr with
  | rx ch f =>
    rw [exec_port_rx]
    exact exists_next_of_admits_rx ch h
  | tx b csEn ack => exact ⟨_, (tx_of_admits h).1⟩
  | disc => exact ⟨_, rfl⟩
  | rst => exact ⟨_, rfl⟩

/-- Outside the length contract a port operation is refused, and the refusal is `overLength` (R235). -/
theorem refused_of_not_inContract {s : State} {tr : Trans} (h : inContract s.params tr = false) :
    exec (portInstr tr) s = .refused .overLength := by
  cases tr with
  | rx ch f =>
    rw [exec_port_rx]
    exact whenAdmitted_neg h
  | tx b csEn ack => exact whenAdmitted_neg h
  | disc => cases h
  | rst => cases h

/-- The inversion rule of a refused port operation. -/
theorem of_exec_port_refused {s : State} {tr : Trans} {r : Refusal} (h : exec (portInstr tr) s = .refused r) :
    inContract s.params tr = false ∧ r = .overLength := by
  cases hc : inContract s.params tr with
  | true =>
    obtain ⟨s', hs'⟩ := exists_next_of_inContract hc
    cases hs'.symm.trans h
  | false =>
    cases (refused_of_not_inContract hc).symm.trans h
    exact ⟨rfl, rfl⟩

theorem run_succ {s s₁ : State} (h : step s = .next s₁) (n : Nat) :
    Host.Core.run core (n + 1) s = Host.Core.run core n s₁ := by
  simp only [Host.Core.run, show core.step s = .next s₁ from h]

/-! ### Frames that fail `VERIFY` -/

/-- The error record of a frame on a channel that fails `VERIFY` (R231, R232). -/
def badFrameRecord (p : Channel × Bytes) : ErrRec :=
  ⟨if p.2.length < 3 then .lengthError else .checksumError, p.1, p.2.length⟩

/-- A frame that fails `VERIFY` adds its record and changes nothing else (R241). -/
theorem rx_of_not_verified {s : State} {f : Bytes} (ch : Channel) (ha : admits s.params f.length = true)
    (hv : verify f ≠ .verdict true) :
    exec (portInstr (.rx ch f)) s = .next { s with er := s.er ++ [badFrameRecord (ch, f)] } := by
  cases hr : verify f with
  | lengthError =>
    have hlt : f.length < 3 := verify_eq_lengthError.1 hr
    rw [badFrameRecord, if_pos hlt]
    exact (rx_of_short ha hlt).1
  | verdict b =>
    cases b with
    | true => exact absurd hr hv
    | false =>
      rw [badFrameRecord, if_neg (Nat.not_lt.2 (three_le_of_verdict hr))]
      exact (rx_of_verify_false ha hr).1

end Sys2Proof.Machine

namespace Sys2Proof.Claims

open Sys2Proof.Machine

/-- Settles O55: without a transaction a step stays where it is, and with one it runs a port operation. -/
theorem onlyOverLengthStops : Obligations.OnlyOverLengthStops := by
  intro s
  cases hin : s.input with
  | nil => exact .inl ⟨s, step_nil hin⟩
  | cons tr rest =>
    rw [step_cons hin]
    cases hc : inContract s.params tr with
    | true => exact .inl (exists_next_of_inContract hc)
    | false => exact .inr ⟨refused_of_not_inContract hc, tr, rest, rfl, hc⟩

/-- A step of a run in contract answers, and what is left of the trace is in contract. -/
theorem step_of_traceInContract {s : State} (h : TraceInContract s) :
    ∃ s', step s = .next s' ∧ s'.input = s.input.tail ∧ s'.params = s.params ∧ TraceInContract s' := by
  rcases onlyOverLengthStops s with ⟨s', hs'⟩ | ⟨-, tr, rest, hin, hc⟩
  · obtain ⟨hparams, -, -, -, -, hinput, -⟩ := stepOnlyAppendsAndKeepsParams s s' hs'
    refine ⟨s', hs', hinput, hparams, fun t ht => ?_⟩
    rw [hparams]
    exact h t (List.mem_of_mem_tail (hinput ▸ ht))
  · have hok : inContract s.params tr = true := h tr (hin ▸ List.mem_cons_self)
    exact absurd hok (Bool.eq_false_iff.1 hc)

/-- Settles O56, by induction on the number of steps: the contract on the rest of the trace is the invariant. -/
theorem runInContractNeverStops : Obligations.RunInContractNeverStops := by
  intro n
  induction n with
  | zero => exact fun s _ => ⟨s, rfl, rfl, rfl⟩
  | succ n ih =>
    intro s h
    obtain ⟨s₁, hstep, hinput₁, hparams₁, h₁⟩ := step_of_traceInContract h
    obtain ⟨s', hrun, hinput, hparams⟩ := ih s₁ h₁
    refine ⟨s', (run_succ hstep n).trans hrun, ?_, hparams.trans hparams₁⟩
    rw [hinput, hinput₁, List.drop_tail]

/-- Settles O21: the length test comes first. -/
theorem shortFrameRaisesLengthError : Obligations.ShortFrameRaisesLengthError :=
  ⟨rfl, fun _ _ _ hlt ha => (rx_of_short ha hlt).1⟩

/-- Bad frames add their records in order (R243). -/
theorem presentAll_bad (bad : List (Channel × Bytes)) (s : State)
    (h : ∀ p ∈ bad, admits s.params p.2.length = true ∧ verify p.2 ≠ .verdict true) :
    presentAll (bad.map fun p => .rx p.1 p.2) s = .next { s with er := s.er ++ bad.map badFrameRecord } := by
  induction bad generalizing s with
  | nil => simp [presentAll]
  | cons p rest ih =>
    obtain ⟨⟨ha, hv⟩, hrest⟩ := List.forall_mem_cons.1 h
    simp only [List.map_cons, presentAll, rx_of_not_verified p.1 ha hv]
    exact (ih { s with er := s.er ++ [badFrameRecord p] } hrest).trans (by simp)

/-- Settles O59: the frames leave records on the error stream, which no port operation reads; and `MAXLEN` alone
refuses. -/
theorem badFramesLeaveOnlyTheirRecords : Obligations.BadFramesLeaveOnlyTheirRecords := by
  refine fun s bad h => ⟨bad.map badFrameRecord, List.length_map .., ?_, presentAll_bad bad s h,
    fun tr t ht => ?_, fun tr r hr => ?_⟩
  · rw [List.map_map]
    rfl
  · obtain ⟨own, w, her, hwr, -, hx⟩ := exec_port_streams (s.er ++ bad.map badFrameRecord) s.wr ht
    rw [← hwr] at hx
    exact ⟨own, her, hx⟩
  · obtain ⟨hc, rfl⟩ := of_exec_port_refused hr
    exact refused_of_not_inContract hc

end Sys2Proof.Claims
end

section
/-! SUPPORT. The life of a session (70_reset_and_hazards.md R263): what the operations that do not end it add to
the event stream and do to `BTYPE`, as one relation that operations put end to end keep. -/

namespace Sys2Proof.Machine

/-- Events before an identification: no detection signal, and nothing a variant frame emits (R263). -/
def Unidentified (es : List Event) : Prop := ∀ e ∈ es, e.isDetection = false ∧ e.fromVariant = false

/-- A stretch of a session: `BTYPE` before it, the events emitted in it, `BTYPE` after it.  Either it gives no
detection signal and leaves `BTYPE`, and no variant frame runs on a null `BTYPE`; or it starts from null and gives the
signal once, right after a battery level, with the type that it leaves in `BTYPE` (R263). -/
inductive Session : Option Byte → List Event → Option Byte → Prop where
  | keep {b : Option Byte} {es : List Event} (hes : ∀ e ∈ es, e.isDetection = false)
      (hnull : b = none → ∀ e ∈ es, e.fromVariant = false) : Session b es b
  | identify {pre post : List Event} {level : Nat} {t : Byte} (hpre : Unidentified pre)
      (hpost : ∀ e ∈ post, e.isDetection = false) :
      Session none (pre ++ [.batteryLevel level, .blockTypeDetected t] ++ post) (some t)

theorem Session.nil (b : Option Byte) : Session b [] b := .keep (by simp) (by simp)

/-- Two stretches put end to end are one: the second finds the type, so it gives no second signal. -/
theorem Session.append {b₁ b₂ b₃ : Option Byte} {es es' : List Event} (h : Session b₁ es b₂)
    (h' : Session b₂ es' b₃) : Session b₁ (es ++ es') b₃ := by
  cases h with
  | keep hes hnull =>
    cases h' with
    | keep hes' hnull' =>
      exact .keep (List.forall_mem_append.2 ⟨hes, hes'⟩) fun hb =>
        List.forall_mem_append.2 ⟨hnull hb, hnull' hb⟩
    | identify hpre hpost =>
      rw [← List.append_assoc, ← List.append_assoc]
      exact .identify (List.forall_mem_append.2 ⟨fun e he => ⟨hes e he, hnull rfl e he⟩, hpre⟩) hpost
  | identify hpre hpost =>
    cases h' with
    | keep hes' _ =>
      rw [List.append_assoc]
      exact .identify hpre (List.forall_mem_append.2 ⟨hpost, hes'⟩)

/-- From one state to another only events were added, and they and `BTYPE` are a stretch of one session. -/
def State.Continues (s s' : State) : Prop := ∃ es, s'.ev = s.ev ++ es ∧ Session s.btype es s'.btype

/-- Emitting nothing and leaving `BTYPE` is the empty stretch. -/
theorem State.continues_of_same {s s' : State} (hev : s'.ev = s.ev) (hb : s'.btype = s.btype) : s.Continues s' :=
  ⟨[], by simp [hev], hb ▸ .nil _⟩

theorem State.Continues.trans {s₁ s₂ s₃ : State} (h : s₁.Continues s₂) (h' : s₂.Continues s₃) : s₁.Continues s₃ := by
  obtain ⟨es, hev, hs⟩ := h
  obtain ⟨es', hev', hs'⟩ := h'
  exact ⟨es ++ es', by rw [hev', hev, List.append_assoc], hs.append hs'⟩

section
variable {s s' : State}

/-- `ID` identifies a null session, its signal right after its battery level, and only emits in an identified one
(R161). -/
theorem exec_id_continues {t battery : Byte} {serial : Win4} {ver : Win3} {pad : Bytes}
    (h : exec (.id t serial ver pad battery) s = .next s') : s.Continues s' := by
  by_cases hb : s.btype = none
  · cases (exec_id_of_null s t serial ver pad battery hb).symm.trans h
    have hpre : Unidentified [.blockType t, .serialNumber (uintLE (bytes4 serial)), .version ver] := by
      simp [Unidentified, Event.isDetection, Event.fromVariant]
    exact ⟨_, rfl, hb ▸ .identify hpre (List.forall_mem_nil _)⟩
  · cases (exec_id_of_identified s t serial ver pad battery hb).symm.trans h
    exact ⟨_, rfl, .keep (by simp [idEvents, Event.isDetection]) (absurd · hb)⟩

/-- A frame kind that `LOOKUP` gave continues the session: on a null `BTYPE` only a base kind is given (R24, R112). -/
theorem exec_frame_continues {k : Key} {kind : Kind} {ch : Channel} {i : Instr}
    (hl : lookup k ch s.active = some kind) (hk : kindOf i = some kind) (h : exec i s = .next s') : s.Continues s' := by
  by_cases hid : kind = .id
  · subst hid
    obtain ⟨t, serial, ver, pad, battery, rfl⟩ := eq_id_of_kindOf hk
    exact exec_id_continues h
  · obtain ⟨e, he, hvariant, hx⟩ := exec_emits_one hk hid s.params.orientBase
    cases (hx s rfl).symm.trans h
    refine ⟨[e], rfl, .keep (by simpa using he) fun hb => ?_⟩
    obtain ⟨-, -, hbase | htable⟩ := lookup_eq_some.1 hl
    · simpa [hbase] using hvariant
    · exact absurd (s.active_of_null hb ▸ htable) (variantOf_ne_some_none kind)

/-- Every port operation but `DISCONNECT` and `RESET` continues the session (R263). -/
theorem exec_port_continues {tr : Trans} (hc : clearsSession tr = false) (h : exec (portInstr tr) s = .next s') :
    s.Continues s' := by
  cases tr with
  | disc => cases hc
  | rst => cases hc
  | tx b csEn ack =>
    obtain ⟨-, rfl⟩ := exec_txbody_eq_next.1 h
    exact State.continues_of_same rfl rfl
  | rx ch f =>
    have ha := admits_of_exec_rx h
    rw [exec_port_rx] at h
    rcases rxFrame_cases ch f s ha with
      ⟨-, he⟩ | ⟨-, he⟩ | ⟨-, _, -, -, he⟩ | ⟨-, kind, i, -, hl, -, hk, -, he⟩ <;> rw [he] at h
    · cases h; exact State.continues_of_same rfl rfl
    · cases h; exact State.continues_of_same rfl rfl
    · cases h; exact State.continues_of_same rfl rfl
    · exact exec_frame_continues hl hk h

/-- A step that presents no disconnect and no reset continues the session. -/
theorem step_continues (hc : ∀ tr ∈ s.input.head?, clearsSession tr = false) (h : step s = .next s') :
    s.Continues s' := by
  cases hin : s.input with
  | nil =>
    cases (step_nil hin).symm.trans h
    exact State.continues_of_same rfl rfl
  | cons tr rest =>
    exact exec_port_continues (s := { s with input := rest, opIndex := s.opIndex + 1 })
      (hc tr (by rw [hin]; rfl)) ((step_cons hin).symm.trans h)

/-- A run of at least one step is a first step and the run from there. -/
theorem exists_of_run_succ {n : Nat} (h : Host.Core.run core (n + 1) s = .next s') :
    ∃ s₁, step s = .next s₁ ∧ Host.Core.run core n s₁ = .next s' := by
  cases hstep : step s with
  | next s₁ => exact ⟨s₁, rfl, (run_succ hstep n).symm.trans h⟩
  | fault r => cases r
  | refused r =>
    simp only [Host.Core.run, show core.step s = .refused r from hstep] at h
    cases h

end

end Sys2Proof.Machine

namespace Sys2Proof.Claims

open Sys2Proof.Machine

/-- A run without disconnect or reset continues the session, by induction on the number of steps. -/
theorem run_continues (n : Nat) {s s' : State} (hc : ∀ tr ∈ s.input.take n, clearsSession tr = false)
    (h : Host.Core.run core n s = .next s') : s.Continues s' := by
  induction n generalizing s with
  | zero =>
    cases h
    exact State.continues_of_same rfl rfl
  | succ n ih =>
    obtain ⟨s₁, hstep, hrun⟩ := exists_of_run_succ h
    obtain ⟨-, -, -, -, -, hinput, -⟩ := stepOnlyAppendsAndKeepsParams s s₁ hstep
    refine (step_continues (fun tr htr => hc tr ?_) hstep).trans (ih (fun tr htr => hc tr ?_) hrun)
    · exact List.mem_of_mem_head? (by simpa [List.head?_take] using htr)
    · exact List.mem_of_mem_tail (by simpa [List.tail_take_eq_take_tail, hinput] using htr)

/-- Settles O57: the run is a stretch of a session that starts from null. -/
theorem detectionFiresOncePerConnection : Obligations.DetectionFiresOncePerConnection := by
  intro n s s' hb hc h
  obtain ⟨es, hev, hs⟩ := run_continues n hc h
  rw [hb] at hs
  generalize hb' : s'.btype = b' at hs
  cases hs with
  | keep hes hnull => exact .inl ⟨rfl, es, hev, fun e he => ⟨hes e he, hnull rfl e he⟩⟩
  | identify hpre hpost => exact .inr ⟨_, _, _, _, rfl, by simpa using hev, hpre, hpost⟩

end Sys2Proof.Claims
end

section
/-! SUPPORT. The base frames (43_base_frames.md), key words and the lengths of the tables' keys (30_encoding.md R62 to
R65), what `MAXLEN` leaves out (70_reset_and_hazards.md R268), the reset state and the presented operation (10_state.md).
-/

namespace Sys2Proof

/-- The eight bits from `i` on of a key word, by its number (R62). -/
theorem keyWord_slice_toNat (k : Key) (i : Nat) :
    ((keyWord k).extractLsb' i 8).toNat =
      (min k.length 255 + 256 * (k.subcommand.toNat + 256 * k.category.toNat)) / 2 ^ i % 2 ^ 8 := by
  rw [BitVec.extractLsb'_toNat, keyWord_toNat, Nat.shiftRight_eq_div_pow]

/-- No table holds a frame longer than 17 bytes (R64, R65). -/
theorem keyOf_length_le (kind : Kind) : (keyOf kind).length ≤ 17 := by
  cases kind <;> decide

theorem lookup_eq_none_of_length {k : Key} (h : 17 < k.length) (ch : Channel) (v : Variant) :
    lookup k ch v = none := by
  refine Option.eq_none_iff_forall_ne_some.2 fun kind hl => ?_
  obtain ⟨rfl, -⟩ := lookup_eq_some.1 hl
  exact absurd (keyOf_length_le kind) (Nat.not_le.2 h)

/-- The key of `BATT` has no row on `INDICATE` (R113; D9). -/
theorem lookup_batt_indicate (v : Variant) : lookup (keyOf .batt) .indicate v = none := by
  refine Option.eq_none_iff_forall_ne_some.2 fun kind hl => ?_
  obtain ⟨hkey, hch, -⟩ := lookup_eq_some.1 hl
  cases hch (keyOf_injective hkey).symm

end Sys2Proof

namespace Sys2Proof.Machine

theorem admits_eq_false {p : Params} {m n : Nat} (hm : p.maxLen = some m) (h : m < n) : admits p n = false := by
  simp [admits, hm, h]

theorem inv_reset : Inv State.reset where
  params := rfl
  events := List.forall_mem_nil _
  errors := List.forall_mem_nil _
  writes := List.forall_mem_nil _

theorem uintLE_quad (b0 b1 b2 b3 : Byte) :
    uintLE [b0, b1, b2, b3] = b0.toNat + 256 * b1.toNat + 65536 * b2.toNat + 16777216 * b3.toNat := by
  simp only [uintLE]
  omega

/-- A frame within `MAXLEN` that decodes runs the instruction it decodes to (R160). -/
theorem exec_rx_of_decode {s : State} {ch : Channel} {f : Bytes} {i : Instr} (ha : admits s.params f.length = true)
    (hd : decode ch s.active f = .ok i) : exec (portInstr (.rx ch f)) s = exec i s := by
  obtain ⟨-, hk, -⟩ := Claims.encodeOfDecodeIsIdentity f ch s.active i hd
  obtain ⟨k, hk⟩ := Option.isSome_iff_exists.1 hk
  rw [exec_rx_eq_receive ha, receive, hd]
  exact (runFrame_spec hk s).1

end Sys2Proof.Machine

namespace Sys2Proof.Claims

open Sys2Proof.Machine

/-- Settles O10: each slice of the key word is a digit of its number in base 256. -/
theorem keyWordSaturatesLength : Obligations.KeyWordSaturatesLength := by
  intro k
  have hc := k.category.isLt
  have hsc := k.subcommand.isLt
  refine ⟨BitVec.eq_of_toNat_eq ?_, BitVec.eq_of_toNat_eq ?_, ?_, lookup_eq_none_of_length⟩ <;>
    rw [keyWord_slice_toNat] <;> omega

/-- Settles O18: `ID` in the two session states, and its frame runs it on either channel in both. -/
theorem idFrameIdentifiesOnce : Obligations.IdFrameIdentifiesOnce := by
  intro s t s0 s1 s2 s3 v0 v1 v2 p0 p1 p2 p3 b four after
  have hfour : four = idEvents t ⟨s0, s1, s2, s3⟩ ⟨v0, v1, v2⟩ b := by
    simp only [four, idEvents, bytes4, uintLE_quad, x10]
  have hx : exec (.id t ⟨s0, s1, s2, s3⟩ ⟨v0, v1, v2⟩ [p0, p1, p2, p3] b) s = .next after := by
    by_cases hb : s.btype = none
    · simp only [exec_id_of_null, after, hb, if_true, hfour, List.append_assoc]
      rfl
    · simp only [exec_id_of_identified _ _ _ _ _ _ hb, after, hb, if_false, hfour]
      rfl
  exact ⟨hx, fun ch ha => (exec_received_of_encode (k := .id) rfl rfl nofun (.inl rfl) rfl ha).trans hx⟩

/-- Settles O19: on `NOTIFY` the frame runs `BATT`, on `INDICATE` its key has no row. -/
theorem battFrameNeedsNotify : Obligations.BattFrameNeedsNotify := by
  refine fun s b => ⟨rfl, fun ha => ⟨?_, ?_⟩⟩
  · exact exec_received_of_encode (i := .batt b) rfl rfl (fun _ => rfl) (.inl rfl) rfl ha
  · refine exec_received_of_lookup_none (by simp) ha fun k hk => ?_
    cases hk
    exact lookup_batt_indicate s.active

/-- Settles O20: `SBTN` is a base kind without a channel qualifier. -/
theorem sbtnFrameEmitsStatus : Obligations.SbtnFrameEmitsStatus := fun _ st =>
  ⟨rfl, fun _ => exec_received_of_encode (i := .sbtn st) rfl rfl nofun (.inl rfl) rfl⟩

/-- Settles O22: `VERIFY` compares the last byte with the sum of the others, before the key is looked at. -/
theorem badChecksumRaisesChecksumError : Obligations.BadChecksumRaisesChecksumError := by
  refine ⟨rfl, fun s ch body c hb hc ha => ?_⟩
  have hv : verify (body ++ [c]) = .verdict false := verify_concat_eq_false hb (mt (sum8_eq_iff body c).1 hc)
  have hlen : (body ++ [c]).length = body.length + 1 := List.length_append
  rw [← hlen] at ha ⊢
  exact (rx_of_verify_false ha hv).1

/-- Settles O24: each of the three is a transaction outside the length contract. -/
theorem overLongSequencesAreRefused : Obligations.OverLongSequencesAreRefused := fun _ _ hm =>
  ⟨fun ch f h => refused_of_not_inContract (tr := .rx ch f) (admits_eq_false hm h),
    fun b ack h => refused_of_not_inContract (tr := .tx b false ack) (admits_eq_false hm h),
    fun b ack h => refused_of_not_inContract (tr := .tx b true ack) (admits_eq_false hm (Nat.lt_succ_of_le h))⟩

/-- Settles O27: a null `BTYPE` activates no variant, and with empty streams only the parameters are left to check. -/
theorem resetStateIsUnidentified : Obligations.ResetStateIsUnidentified :=
  ⟨rfl, State.active_of_null _ rfl, rfl, rfl, rfl, inv_reset⟩

/-- Settles O49: presenting a transaction leaves the parameters and `BTYPE`, so the frame decodes as before it. -/
theorem stepRunsPresentedOperation : Obligations.StepRunsPresentedOperation := by
  refine fun s => ⟨step_nil, fun _ _ => step_cons, fun ch f rest i hin ha hd => ?_⟩
  rw [step_cons hin]
  exact exec_rx_of_decode (by exact ha) (by exact hd)

/-- Settles O52: the decoder computes the six results. -/
theorem specFramesDecodeAsWritten : Obligations.SpecFramesDecodeAsWritten :=
  ⟨rfl, rfl, rfl, rfl, rfl, rfl⟩

end Sys2Proof.Claims
end
